-- ==== Sys2Proof/Word.lean ====
section
/-! DEFINITION. The unsigned values the spec moves as bits, each at the width the spec gives it
(spec/00_scope.md R6, R10; all values are unsigned). -/

namespace Sys2Proof

/-- An 8-bit value: a SETUP byte, the power-domain setting, a payload (R6, PDS_BITS). -/
abbrev Byte := BitVec 8

/-- A sample word, SAMPLE_BITS = 24 (R6, R61). -/
abbrev Sample := BitVec 24

/-- A sample width or bit position, WIDTH_BITS = 5 (R6). -/
abbrev Width := BitVec 5

/-- A length in bytes, LEN_BITS = 16 (R6). -/
abbrev Length := BitVec 16

end Sys2Proof
end

