-- ==== Sys2Proof/Config.lean ====
section
/-! DEFINITION. The parameters a model of the block takes as arguments (spec/00_scope.md R6), as one
plain record that the machine's state carries, and the free values that stand for the spec's draws
(R13). The parameters stand in the state so that every statement about a state is a statement for
every value of them (log 1). -/

namespace Sys2Proof

/-- ACTIVE_EDGE: which toggle of the bit clock is the active edge (R6, decision D5). -/
inductive Edge where
  | falling
  | rising
deriving DecidableEq, Repr

/-- The OPEN parameters of R6. SAMPLE_BITS, WIDTH_BITS, PDS_BITS and LEN_BITS are fixed there and are
the types of Word.lean. -/
structure Config where
  /-- DIV_WIDTH, the width of the divider port and of T.cnt. -/
  divWidth : Nat
  /-- ACTIVE_EDGE. -/
  activeEdge : Edge
  /-- BCLK_RESET, the reset level of T.clk. -/
  bclkReset : Bool
  /-- PD_RESET, the reset value of H.pds. -/
  pdReset : Byte
  /-- CUR_CODE, the request code of CUR. -/
  curCode : Byte
  /-- PD_SELECTOR, compared with the value high byte. -/
  pdSelector : Byte
  /-- AC_IF, compared with the index high byte. -/
  acIf : Byte
deriving DecidableEq, Repr

namespace Config

/-- DIV_WIDTH is at least 1 (R6). -/
def wf (c : Config) : Bool := decide (1 ≤ c.divWidth)

/-- FREE VALUE (log 5): the level of `sd` in a cycle where the spec gives it none (R112, U9). -/
opaque freeSd : Nat → Bool

/-- FREE VALUE (log 5): `needSample` in cycle 0 (R113, U10). -/
opaque freeNeedSample : Nat → Bool

/-- FREE VALUE (log 5): `txPayload` outside GET cycles (R49, R146, U11). -/
opaque freeTxPayload : Nat → Byte

/-- FREE VALUE (log 5): `txMaxLen` outside GET cycles (R49, R146, U11). -/
opaque freeTxMaxLen : Nat → Length

/-- FREE VALUE (log 5): `rxMaxLen` outside SET cycles (R49, R150, U11). -/
opaque freeRxMaxLen : Nat → Length

end Config

end Sys2Proof
end

