-- ==== Sys2Proof/Syntax.lean ====
section
/-! DEFINITION. What the block decodes (spec/30_encoding.md R80): the SETUP fields of a request
(spec/10_state.md R45) and the operations, one constructor of Instr for each row of
spec/opcode_table.json. -/

namespace Sys2Proof

/-- `setup.type` (R45, codes in R81). -/
inductive SetupType where
  | standard
  | classSpecific
  | vendor
  | reserved
deriving DecidableEq, Repr

/-- `setup.recipient` (R45, codes in R81): `reserved n` is the reserved code `n + 4`. -/
inductive Recipient where
  | device
  | interface
  | endpoint
  | other
  | reserved (n : Fin 28)
deriving DecidableEq, Repr

/-- The four SETUP bytes that name a location of the control space (R45, R63). -/
structure Selector where
  valueHigh : Byte
  valueLow : Byte
  indexHigh : Byte
  indexLow : Byte
deriving DecidableEq, Repr

/-- The SETUP fields (R45). `isIn` is true for IN, a GET, and false for OUT, a SET. -/
structure Setup where
  isIn : Bool
  typ : SetupType
  recipient : Recipient
  request : Byte
  sel : Selector
  length : Length
deriving DecidableEq, Repr

/-- The operations of the block, one for each row of spec/opcode_table.json. A request class carries
the SETUP fields its row leaves open and the operand `setup.length` (R84); a tick operation has no
operand of its own, since it reads registers and ports (R84, R92). -/
inductive Instr where
  /-- GET_CUR_PD (R83 row 1). -/
  | getCurPd (len : Length)
  /-- SET_CUR_PD (R83 row 2). -/
  | setCurPd (len : Length)
  /-- GET_CUR_OTHER (R83 row 3). -/
  | getCurOther (sel : Selector) (len : Length)
  /-- SET_CUR_OTHER (R83 row 4). -/
  | setCurOther (sel : Selector) (len : Length)
  /-- CLASS_IF_OTHER (R83 row 5). -/
  | classIfOther (isIn : Bool) (request : Byte) (sel : Selector) (len : Length)
  /-- NOT_ELIGIBLE (R83 row 6). -/
  | notEligible (setup : Setup)
  /-- NP_UPDATE (R101). -/
  | npUpdate
  /-- TX_IDLE_HOLD (R102). -/
  | txIdleHold
  /-- TX_START (R103). -/
  | txStart
  /-- TX_COUNT (R104). -/
  | txCount
  /-- TX_TOGGLE_INACTIVE (R106). -/
  | txToggleInactive
  /-- TX_WRAP (R107). -/
  | txWrap
  /-- TX_ADVANCE (R108). -/
  | txAdvance
  /-- TX_ADVANCE_FLIP (R109). -/
  | txAdvanceFlip
  /-- IDLE_IGNORE (R142). -/
  | idleIgnore
  /-- IDLE_DISPATCH_CUR (R143). -/
  | idleDispatchCur
  /-- IDLE_DISPATCH_UNHANDLED (R144). -/
  | idleDispatchUnhandled
  /-- GET_DRIVE (R146). -/
  | getDrive
  /-- GET_DATA_MATCH (R147). -/
  | getDataMatch
  /-- GET_DATA_MISMATCH (R148). -/
  | getDataMismatch
  /-- GET_STATUS (R149). -/
  | getStatus
  /-- SET_DRIVE (R150). -/
  | setDrive
  /-- SET_ARM (R151). -/
  | setArm
  /-- SET_MISMATCH (R152). -/
  | setMismatch
  /-- SET_COMMIT (R153). -/
  | setCommit
  /-- SET_DISCARD (R154). -/
  | setDiscard
  /-- SET_DATA_ACK (R155). -/
  | setDataAck
  /-- SET_STATUS_ZLP (R156). -/
  | setStatusZlp
  /-- SET_DONE (R158). -/
  | setDone
  /-- UNHANDLED_STALL (data) (R157). -/
  | unhandledStallData
  /-- UNHANDLED_STALL (status) (R157). -/
  | unhandledStallStatus
  /-- HOLD (R159). -/
  | hold
deriving DecidableEq, Repr

end Sys2Proof
end

