-- ==== Sys2Proof/WellFormed.lean ====
section
/-! DEFINITION. Which terms of Instr stand for an operation of the opcode table. The rows of the
request classes are ordered, and the first row whose condition holds gives the class
(spec/30_encoding.md R83): a class's operands must not be those of an earlier row. Every tick
operation is well formed. -/

namespace Sys2Proof

/-- The four bytes are those of the power-domain control (R86, `selPD`). -/
def Selector.isPowerDomain (cfg : Config) (sel : Selector) : Bool :=
  sel.indexLow == 0 && sel.indexHigh == cfg.acIf && sel.valueLow == 0 && sel.valueHigh == cfg.pdSelector

/-- Well-formed for the parameters `cfg` (R83, R85, R86). -/
def Instr.wf (cfg : Config) : Instr → Bool
  | .getCurPd _ => true
  | .setCurPd _ => true
  | .getCurOther sel _ => !sel.isPowerDomain cfg
  | .setCurOther sel _ => !sel.isPowerDomain cfg
  | .classIfOther _ request _ _ => request != cfg.curCode
  | .notEligible f => !(f.typ == .classSpecific && f.recipient == .interface)
  | .npUpdate => true
  | .txIdleHold => true
  | .txStart => true
  | .txCount => true
  | .txToggleInactive => true
  | .txWrap => true
  | .txAdvance => true
  | .txAdvanceFlip => true
  | .idleIgnore => true
  | .idleDispatchCur => true
  | .idleDispatchUnhandled => true
  | .getDrive => true
  | .getDataMatch => true
  | .getDataMismatch => true
  | .getStatus => true
  | .setDrive => true
  | .setArm => true
  | .setMismatch => true
  | .setCommit => true
  | .setDiscard => true
  | .setDataAck => true
  | .setStatusZlp => true
  | .setDone => true
  | .unhandledStallData => true
  | .unhandledStallStatus => true
  | .hold => true

end Sys2Proof
end

