-- ==== Sys2Proof/Decode.lean ====
section
/-! DEFINITION. The decoder and, after it, the encoder (spec/30_encoding.md). The block has two decode
spaces (R80): the request classes, selected by the 48-bit SETUP key K (R82, R83), and the tick
operations, selected by the 6-bit transmitter key (R87) and the 13-bit handler key (R88). One key
selects a LIST of operations: NP_UPDATE beside one transmitter operation, every matching handler
operation. -/

namespace Sys2Proof

/-- The parameter values that the opcode table and the test vectors assume (R6, R83;
spec/95_test_vectors.md). DESIGN CHOICE for the machine's reset state: log 1. -/
def Config.vectors : Config where
  divWidth := 8
  activeEdge := .falling
  bclkReset := false
  pdReset := 0x00
  curCode := 0x01
  pdSelector := 0x02
  acIf := 0x0B

/-- Why a word is no key of the block. -/
inductive DecodeError where
  /-- The table has no row of this many bits. -/
  | unknownKeyWidth (nbits : Nat)
  /-- A bit is set above the key's own bits. -/
  | strayBits (nbits w : Nat)
  /-- The handler state code 11, which is unreachable (R89). -/
  | unreachableHandlerState
deriving DecidableEq, Repr

/-- A key as raw bits, in the space it belongs to. -/
inductive Encoded where
  /-- The SETUP key K and the operand `setup.length`, which is no part of K (R82, R84). -/
  | setup (k : BitVec 48) (len : Length)
  /-- The transmitter event key (R87). -/
  | tx (k : BitVec 6)
  /-- The handler event key (R88). -/
  | handler (k : BitVec 13)
deriving DecidableEq, Repr

/-! ### SETUP fields -/

/-- `eligible` (R85). -/
def Setup.eligible (f : Setup) : Bool := f.typ == .classSpecific && f.recipient == .interface

/-- `isCur` (R85). -/
def Setup.isCur (cfg : Config) (f : Setup) : Bool := f.request == cfg.curCode

/-- `selPD` (R86). -/
def Setup.selPD (cfg : Config) (f : Setup) : Bool :=
  f.sel.indexLow == 0 && f.sel.indexHigh == cfg.acIf && f.sel.valueLow == 0 && f.sel.valueHigh == cfg.pdSelector

/-- The type codes of R81 (general knowledge there: log 15). -/
def SetupType.ofCode (c : BitVec 2) : SetupType :=
  if c = 0 then .standard else if c = 1 then .classSpecific else if c = 2 then .vendor else .reserved

/-- The recipient codes of R81 (general knowledge there: log 15). -/
def Recipient.ofCode (c : BitVec 5) : Recipient :=
  if c = 0 then .device
  else if c = 1 then .interface
  else if c = 2 then .endpoint
  else if c = 3 then .other
  else .reserved ⟨c.toNat - 4, by omega⟩

/-- The SETUP fields that the key K names, field by field as R82 lists them, with the operand length. -/
def Setup.ofKey (k : BitVec 48) (len : Length) : Setup where
  isIn := k.getLsbD 47
  typ := .ofCode (k.extractLsb' 45 2)
  recipient := .ofCode (k.extractLsb' 40 5)
  request := k.extractLsb' 32 8
  sel :=
    { valueHigh := k.extractLsb' 24 8
      valueLow := k.extractLsb' 16 8
      indexHigh := k.extractLsb' 8 8
      indexLow := k.extractLsb' 0 8 }
  length := len

/-- The request class of a SETUP: the first row of R83 whose condition holds. -/
def Setup.requestClass (cfg : Config) (f : Setup) : Instr :=
  if f.isIn && f.eligible && f.isCur cfg && f.selPD cfg then .getCurPd f.length
  else if !f.isIn && f.eligible && f.isCur cfg && f.selPD cfg then .setCurPd f.length
  else if f.isIn && f.eligible && f.isCur cfg then .getCurOther f.sel f.length
  else if !f.isIn && f.eligible && f.isCur cfg then .setCurOther f.sel f.length
  else if f.eligible then .classIfOther f.isIn f.request f.sel f.length
  else .notEligible f

/-! ### The transmitter event key (R87) -/

/-- The six bits of the transmitter event key, by name (R87). -/
structure TxKey where
  /-- `T.st == RUN`. -/
  s : Bool
  /-- `divider == 0 || width == 0`. -/
  z : Bool
  /-- `T.cnt == divider`. -/
  e : Bool
  /-- `!T.clk == ACTIVE_LEVEL`. -/
  a : Bool
  /-- `T.bp == width`. -/
  w : Bool
  /-- `T.bp == T.lb`. -/
  b : Bool
deriving DecidableEq, Repr

/-- Bit 5 is S, bit 0 is B (R87). -/
def TxKey.ofBits (k : BitVec 6) : TxKey where
  s := k.getLsbD 5
  z := k.getLsbD 4
  e := k.getLsbD 3
  a := k.getLsbD 2
  w := k.getLsbD 1
  b := k.getLsbD 0

/-- Bit 5 is S, bit 0 is B (R87). -/
def TxKey.toBits (k : TxKey) : BitVec 6 := BitVec.ofBoolListLE [k.b, k.w, k.a, k.e, k.z, k.s]

/-- The one operation of the seven that the key selects: the table of R87, row for row. -/
def TxKey.operation (k : TxKey) : Instr :=
  match k.s, k.z, k.e, k.a, k.w, k.b with
  | false, true, _, _, _, _ => .txIdleHold            -- 01xxxx
  | false, false, _, _, _, _ => .txStart              -- 00xxxx
  | true, _, false, _, _, _ => .txCount               -- 1x0xxx
  | true, _, true, false, _, _ => .txToggleInactive   -- 1x10xx
  | true, _, true, true, true, _ => .txWrap           -- 1x111x
  | true, _, true, true, false, false => .txAdvance   -- 1x1100
  | true, _, true, true, false, true => .txAdvanceFlip -- 1x1101

/-! ### The handler event key (R88) -/

/-- The thirteen bits of the handler event key, by name (R88). -/
structure HandlerKey where
  /-- `s1 s0` is `H.st`: 00 IDLE, 01 HANDLE_CURRENT, 10 UNHANDLED. -/
  s1 : Bool
  s0 : Bool
  /-- `setupRcv && eligible`. -/
  v : Bool
  /-- `isCur`. -/
  c : Bool
  /-- `setup.isIn`. -/
  i : Bool
  /-- `dataReq`. -/
  d : Bool
  /-- `statusReq`. -/
  q : Bool
  /-- `rxReady`. -/
  y : Bool
  /-- `ackIn`. -/
  k : Bool
  /-- `H.trig`. -/
  t : Bool
  /-- `lenMatch`. -/
  m : Bool
  /-- `selPD`. -/
  p : Bool
  /-- `rxDone`. -/
  n : Bool
deriving DecidableEq, Repr

/-- Position 1 (s1) is the leftmost bit, position 13 (N) the rightmost (R88). -/
def HandlerKey.ofBits (w : BitVec 13) : HandlerKey where
  s1 := w.getLsbD 12
  s0 := w.getLsbD 11
  v := w.getLsbD 10
  c := w.getLsbD 9
  i := w.getLsbD 8
  d := w.getLsbD 7
  q := w.getLsbD 6
  y := w.getLsbD 5
  k := w.getLsbD 4
  t := w.getLsbD 3
  m := w.getLsbD 2
  p := w.getLsbD 1
  n := w.getLsbD 0

/-- Position 1 (s1) is the leftmost bit, position 13 (N) the rightmost (R88). -/
def HandlerKey.toBits (h : HandlerKey) : BitVec 13 :=
  BitVec.ofBoolListLE [h.n, h.p, h.m, h.t, h.k, h.y, h.q, h.d, h.i, h.c, h.v, h.s0, h.s1]

/-- `H.st` is IDLE, code 00. -/
def HandlerKey.idle (h : HandlerKey) : Bool := !h.s1 && !h.s0

/-- `H.st` is HANDLE_CURRENT, code 01. -/
def HandlerKey.current (h : HandlerKey) : Bool := !h.s1 && h.s0

/-- `H.st` is UNHANDLED, code 10. -/
def HandlerKey.unhandled (h : HandlerKey) : Bool := h.s1 && !h.s0

/-- The rows of R88 whose operation writes a register or asserts a pulse output, in the table's
order. -/
def HandlerKey.actingRows (h : HandlerKey) : List (Bool × Instr) :=
  [ (h.idle && !h.v, .idleIgnore),                                  -- 000xxxxxxxxxx
    (h.idle && h.v && h.c, .idleDispatchCur),                       -- 0011xxxxxxxxx
    (h.idle && h.v && !h.c, .idleDispatchUnhandled),                -- 0010xxxxxxxxx
    (h.current && h.i && h.d && h.m, .getDataMatch),                -- 01xx11xxxx1xx
    (h.current && h.i && h.d && !h.m, .getDataMismatch),            -- 01xx11xxxx0xx
    (h.current && h.i && h.q, .getStatus),                          -- 01xx1x1xxxxxx
    (h.current && !h.i && !h.t && h.m, .setArm),                    -- 01xx0xxxx01xx
    (h.current && !h.i && !h.t && !h.m, .setMismatch),              -- 01xx0xxxx00xx
    (h.current && !h.i && h.p && h.n, .setCommit),                  -- 01xx0xxxxxx11
    (h.current && !h.i && h.y, .setDataAck),                        -- 01xx0xx1xxxxx
    (h.current && !h.i && h.q, .setStatusZlp),                      -- 01xx0x1xxxxxx
    (h.current && !h.i && h.k, .setDone),                           -- 01xx0xxx1xxxx
    (h.unhandled && h.d, .unhandledStallData),                      -- 10xxx1xxxxxxx
    (h.unhandled && h.q, .unhandledStallStatus) ]                   -- 10xxxx1xxxxxx

/-- HOLD, when no operation that writes a register or asserts a pulse matches (R159; log 18), and the
two combinational drives (R146, R150). -/
def HandlerKey.restRows (h : HandlerKey) : List (Bool × Instr) :=
  [ ((h.current || h.unhandled) && !h.actingRows.any (·.1), .hold),
    (h.current && h.i, .getDrive),                                  -- 01xx1xxxxxxxx
    (h.current && !h.i, .setDrive) ]                                -- 01xx0xxxxxxxx

/-- SET_DISCARD, the explicit no-op row (R154). -/
def HandlerKey.discardRows (h : HandlerKey) : List (Bool × Instr) :=
  [ (h.current && !h.i && !h.p && h.n, .setDiscard) ]               -- 01xx0xxxxxx01

/-- The operations of the rows whose condition holds, in order. -/
def firing (rows : List (Bool × Instr)) : List Instr := (rows.filter (·.1)).map (·.2)

/-- Every operation whose pattern matches fires (R88), in any order (R141). -/
def HandlerKey.operations (h : HandlerKey) : List Instr :=
  firing (h.restRows ++ (h.actingRows ++ h.discardRows))

/-- The handler's decoder: the state code 11 is rejected by name (R89). -/
def HandlerKey.decode (h : HandlerKey) : Except DecodeError (List Instr) :=
  if h.s1 && h.s0 then .error .unreachableHandlerState else .ok h.operations

/-! ### The decoder -/

/-- The operations that a key selects, in the order the machine does them (R100, R140). -/
def decode (cfg : Config) : Encoded → Except DecodeError (List Instr)
  | .setup k len => .ok [(Setup.ofKey k len).requestClass cfg]
  | .tx k => .ok [.npUpdate, (TxKey.ofBits k).operation]
  | .handler k => (HandlerKey.ofBits k).decode

/-- The key that `nbits` bits of value `w` are, by the widths of the opcode table's rows: 48 for a
SETUP key (operand length 0), 6 or a whole byte for a transmitter key, 13 or two whole bytes for a
handler key. -/
def encodedOfTable (nbits w : Nat) : Except DecodeError Encoded :=
  if nbits = 48 then if w < 2 ^ 48 then .ok (.setup (BitVec.ofNat 48 w) 0) else .error (.strayBits nbits w)
  else if nbits = 6 ∨ nbits = 8 then if w < 2 ^ 6 then .ok (.tx (BitVec.ofNat 6 w)) else .error (.strayBits nbits w)
  else if nbits = 13 ∨ nbits = 16 then
    if w < 2 ^ 13 then .ok (.handler (BitVec.ofNat 13 w)) else .error (.strayBits nbits w)
  else .error (.unknownKeyWidth nbits)

/-- The instruction of a word of the opcode table, for the parameters the table assumes: the LAST of
the operations its key selects, which is the most specific one (log 13). -/
def decodeTableWord (nbits w : Nat) : Option Instr :=
  match encodedOfTable nbits w with
  | .error _ => none
  | .ok e =>
    match decode Config.vectors e with
    | .error _ => none
    | .ok l => l.getLast?

/-! ### The encoder -/

/-- The type codes of R81. -/
def SetupType.code : SetupType → BitVec 2
  | .standard => 0
  | .classSpecific => 1
  | .vendor => 2
  | .reserved => 3

/-- The recipient codes of R81. -/
def Recipient.code : Recipient → BitVec 5
  | .device => 0
  | .interface => 1
  | .endpoint => 2
  | .other => 3
  | .reserved n => BitVec.ofNat 5 (n.val + 4)

/-- The key K of the SETUP fields: the concatenation of R82, most significant field first. -/
def Setup.key (f : Setup) : BitVec 48 :=
  BitVec.ofBool f.isIn ++ f.typ.code ++ f.recipient.code ++ f.request ++ f.sel.valueHigh ++ f.sel.valueLow
    ++ f.sel.indexHigh ++ f.sel.indexLow

/-- The selector of the power-domain control (R86). -/
def Config.pdSelectorBytes (cfg : Config) : Selector where
  valueHigh := cfg.pdSelector
  valueLow := 0
  indexHigh := cfg.acIf
  indexLow := 0

/-- A class request to an interface (R85). -/
def Setup.classRequest (isIn : Bool) (request : Byte) (sel : Selector) (len : Length) : Setup where
  isIn := isIn
  typ := .classSpecific
  recipient := .interface
  request := request
  sel := sel
  length := len

/-- The canonical handler key of a state code, all other bits 0. -/
def HandlerKey.zero (s1 s0 : Bool) : HandlerKey where
  s1 := s1
  s0 := s0
  v := false
  c := false
  i := false
  d := false
  q := false
  y := false
  k := false
  t := false
  m := false
  p := false
  n := false

/-- The key of an operation, written from the patterns of R83, R87 and R88 with every `x` at 0, but
for T = 1 in SET_DRIVE's key, so that no SET_MISMATCH matches beside it, and HOLD in UNHANDLED.
NP_UPDATE matches every key (its row is `xxxxxx`). -/
def encode (cfg : Config) : Instr → Encoded
  | .getCurPd len => .setup (Setup.classRequest true cfg.curCode cfg.pdSelectorBytes len).key len
  | .setCurPd len => .setup (Setup.classRequest false cfg.curCode cfg.pdSelectorBytes len).key len
  | .getCurOther sel len => .setup (Setup.classRequest true cfg.curCode sel len).key len
  | .setCurOther sel len => .setup (Setup.classRequest false cfg.curCode sel len).key len
  | .classIfOther isIn request sel len => .setup (Setup.classRequest isIn request sel len).key len
  | .notEligible f => .setup f.key f.length
  | .npUpdate => .tx 0b000000
  | .txIdleHold => .tx 0b010000
  | .txStart => .tx 0b000000
  | .txCount => .tx 0b100000
  | .txToggleInactive => .tx 0b101000
  | .txWrap => .tx 0b101110
  | .txAdvance => .tx 0b101100
  | .txAdvanceFlip => .tx 0b101101
  | .idleIgnore => .handler 0b0000000000000
  | .idleDispatchCur => .handler 0b0011000000000
  | .idleDispatchUnhandled => .handler 0b0010000000000
  | .getDrive => .handler 0b0100100000000
  | .getDataMatch => .handler 0b0100110000100
  | .getDataMismatch => .handler 0b0100110000000
  | .getStatus => .handler 0b0100101000000
  | .setDrive => .handler 0b0100000001000
  | .setArm => .handler 0b0100000000100
  | .setMismatch => .handler 0b0100000000000
  | .setCommit => .handler 0b0100000000011
  | .setDiscard => .handler 0b0100000001001
  | .setDataAck => .handler 0b0100000100000
  | .setStatusZlp => .handler 0b0100001000000
  | .setDone => .handler 0b0100000010000
  | .unhandledStallData => .handler 0b1000010000000
  | .unhandledStallStatus => .handler 0b1000001000000
  | .hold => .handler 0b1000000000000

/-! ### The opcode table's own numbers -/

/-- A row of spec/opcode_table.json as numbers: a key of the row's space matches when its bits under
`mask` are `pat`. -/
structure Row where
  mask : Nat
  pat : Nat
deriving DecidableEq, Repr

/-- The match and mask of each row, copied from spec/opcode_table.json (`x` is a 0 of the mask; the
request classes for CUR_CODE = 0x01, PD_SELECTOR = 0x02, AC_IF = 0x0B). HOLD's row is no pattern of
bits, so it has none here. -/
def Instr.row : Instr → Option Row
  | .getCurPd _ => some ⟨0xFFFFFFFFFFFF, 0xA10102000B00⟩
  | .setCurPd _ => some ⟨0xFFFFFFFFFFFF, 0x210102000B00⟩
  | .getCurOther _ _ => some ⟨0xFFFF00000000, 0xA10100000000⟩
  | .setCurOther _ _ => some ⟨0xFFFF00000000, 0x210100000000⟩
  | .classIfOther _ _ _ _ => some ⟨0x7F0000000000, 0x210000000000⟩
  | .notEligible _ => some ⟨0x000000000000, 0x000000000000⟩
  | .npUpdate => some ⟨0b000000, 0b000000⟩
  | .txIdleHold => some ⟨0b110000, 0b010000⟩
  | .txStart => some ⟨0b110000, 0b000000⟩
  | .txCount => some ⟨0b101000, 0b100000⟩
  | .txToggleInactive => some ⟨0b101100, 0b101000⟩
  | .txWrap => some ⟨0b101110, 0b101110⟩
  | .txAdvance => some ⟨0b101111, 0b101100⟩
  | .txAdvanceFlip => some ⟨0b101111, 0b101101⟩
  | .idleIgnore => some ⟨0b1110000000000, 0b0000000000000⟩
  | .idleDispatchCur => some ⟨0b1111000000000, 0b0011000000000⟩
  | .idleDispatchUnhandled => some ⟨0b1111000000000, 0b0010000000000⟩
  | .getDrive => some ⟨0b1100100000000, 0b0100100000000⟩
  | .getDataMatch => some ⟨0b1100110000100, 0b0100110000100⟩
  | .getDataMismatch => some ⟨0b1100110000100, 0b0100110000000⟩
  | .getStatus => some ⟨0b1100101000000, 0b0100101000000⟩
  | .setDrive => some ⟨0b1100100000000, 0b0100000000000⟩
  | .setArm => some ⟨0b1100100001100, 0b0100000000100⟩
  | .setMismatch => some ⟨0b1100100001100, 0b0100000000000⟩
  | .setCommit => some ⟨0b1100100000011, 0b0100000000011⟩
  | .setDiscard => some ⟨0b1100100000011, 0b0100000000001⟩
  | .setDataAck => some ⟨0b1100100100000, 0b0100000100000⟩
  | .setStatusZlp => some ⟨0b1100101000000, 0b0100001000000⟩
  | .setDone => some ⟨0b1100100010000, 0b0100000010000⟩
  | .unhandledStallData => some ⟨0b1100010000000, 0b1000010000000⟩
  | .unhandledStallStatus => some ⟨0b1100001000000, 0b1000001000000⟩
  | .hold => none

/-- The key of `w` bits matches the row. -/
def Row.fits {w : Nat} (r : Row) (k : BitVec w) : Bool := k.toNat &&& r.mask == r.pat

/-- The key, in whichever space, matches the row. -/
def Encoded.fits (e : Encoded) (r : Row) : Bool :=
  match e with
  | .setup k _ => r.fits k
  | .tx k => r.fits k
  | .handler k => r.fits k

end Sys2Proof
end

