-- ==== Sys2Proof/Machine/State.lean ====
section
/-! DEFINITION. The state of the machine (spec/10_state.md): the registers of T and H, the inputs of
the current cycle and of the cycles to come, the output levels of the last cycle, and the parameters.
All of it is plain data. The values after reset are those of R33, R50 and R230; where the spec gives
none, those of log 1 to log 5. -/

namespace Sys2Proof.Machine

/-- A channel (R12); its code is in Operands.lean. -/
inductive Channel where
  | left
  | right
deriving DecidableEq, Repr

/-- The values of `T.st` (R20). -/
inductive TxState where
  | idle
  | run
deriving DecidableEq, Repr

/-- The values of `H.st` (R40). -/
inductive HandlerState where
  | idle
  | handleCurrent
  | unhandled
deriving DecidableEq, Repr

/-- The registers of the serial audio transmitter T (R20 to R28). -/
structure TxRegs where
  /-- `T.st` (R20). -/
  st : TxState
  /-- `T.cnt` (R21), DIV_WIDTH bits: a number below `2 ^ divWidth` (log 12). -/
  cnt : Nat
  /-- `T.clk` (R22). -/
  clk : Bool
  /-- `T.bp` (R23). -/
  bp : Width
  /-- `T.lb` (R24). -/
  lb : Width
  /-- `T.cur` (R25). -/
  cur : Channel
  /-- `T.nxt` (R26). -/
  nxt : Channel
  /-- `T.np` (R27). -/
  np : Channel
  /-- `T.gDiv` (R28, model-only), DIV_WIDTH bits. -/
  gDiv : Nat
  /-- `T.gWid` (R28, model-only). -/
  gWid : Width
deriving DecidableEq, Repr

/-- The registers of the control request handler H (R40 to R43). -/
structure HandlerRegs where
  /-- `H.st` (R40). -/
  st : HandlerState
  /-- `H.trig` (R41). -/
  trig : Bool
  /-- `H.pds` (R42). -/
  pds : Byte
  /-- `H.gSetup` (R43, model-only). -/
  gSetup : Setup
deriving DecidableEq, Repr

/-- The inputs of one cycle (R29 to R31, R45 to R47). -/
structure Inputs where
  /-- `divider` (R29); the port carries its low DIV_WIDTH bits (log 12). -/
  divider : Nat
  /-- `width` (R30). -/
  width : Width
  /-- `sample[Left]` (R31). -/
  sampleLeft : Sample
  /-- `sample[Right]` (R31). -/
  sampleRight : Sample
  /-- The SETUP fields (R45). -/
  setup : Setup
  /-- `setupRcv` (R46). -/
  setupRcv : Bool
  /-- `dataReq` (R46). -/
  dataReq : Bool
  /-- `statusReq` (R46). -/
  statusReq : Bool
  /-- `rxReady` (R46). -/
  rxReady : Bool
  /-- `ackIn` (R46). -/
  ackIn : Bool
  /-- `rxDone` (R47). -/
  rxDone : Bool
  /-- `rxPayload` (R47). -/
  rxPayload : Byte
deriving DecidableEq, Repr

/-- The outputs of one cycle (R32, R48, R49). -/
structure Outputs where
  /-- `bclk` (R32). -/
  bclk : Bool
  /-- `ws` (R32). -/
  ws : Bool
  /-- `sd` (R32). -/
  sd : Bool
  /-- `needSample` (R32). -/
  needSample : Bool
  /-- `ackOut` (R48). -/
  ackOut : Bool
  /-- `stallOut` (R48). -/
  stallOut : Bool
  /-- `zlpOut` (R48). -/
  zlpOut : Bool
  /-- `txStart` (R49). -/
  txStart : Bool
  /-- `txPayload` (R49). -/
  txPayload : Byte
  /-- `txMaxLen` (R49). -/
  txMaxLen : Length
  /-- `rxStart` (R49). -/
  rxStart : Bool
  /-- `rxMaxLen` (R49). -/
  rxMaxLen : Length
deriving DecidableEq, Repr

/-- The state between two ticks. -/
structure State where
  /-- The parameters (R6); no step changes them (log 1). -/
  cfg : Config
  /-- The registers of T. -/
  t : TxRegs
  /-- The registers of H. -/
  h : HandlerRegs
  /-- The inputs of the current cycle, `I_k` (R7). -/
  inp : Inputs
  /-- The inputs of the cycles to come, next first (R91, log 3). -/
  stim : List Inputs
  /-- The output levels of the cycle that the last step computed (R8, log 4). -/
  out : Outputs
  /-- The number k of the current cycle (R7). -/
  cycle : Nat
  /-- The model's own counter that the free values are applied to (R13, log 5). -/
  draws : Nat
deriving DecidableEq, Repr

/-- The architectural faults: none. "The block has no architectural fault and no stuck state" (R13;
R200). Nothing raises one (log 17). -/
inductive Fault
deriving DecidableEq, Repr

/-- Why a cycle is refused (R207): its inputs break a duty the spec places on the environment, and the
model gives the run no meaning from there on. All are safe: they err toward unprovable. -/
inductive Refusal where
  /-- An operation whose meaning is not written yet; raised by no arm of exec. Safe. -/
  | notModelled (mnemonic : String)
  /-- REFUSE_RECONFIG_IN_RUN (R114), raised by a tick of T in RUN. Safe. -/
  | reconfigInRun
  /-- REFUSE_WIDTH_RANGE (R115), raised by any tick of T. Safe. -/
  | widthRange
  /-- REFUSE_SETUP_MID_TRANSFER (R160), raised by a SETUP while H is not IDLE. Safe. -/
  | setupMidTransfer
  /-- REFUSE_SETUP_FIELDS_CHANGED (R161), raised by a cycle of H that is not IDLE. Safe. -/
  | setupFieldsChanged
deriving DecidableEq, Repr

/-- The SETUP fields with every code 0. -/
def zeroSetup : Setup where
  isIn := false
  typ := .standard
  recipient := .device
  request := 0
  sel := { valueHigh := 0, valueLow := 0, indexHigh := 0, indexLow := 0 }
  length := 0

/-- No pulse and every level 0 (log 3). -/
def Inputs.quiet : Inputs where
  divider := 0
  width := 0
  sampleLeft := 0
  sampleRight := 0
  setup := zeroSetup
  setupRcv := false
  dataReq := false
  statusReq := false
  rxReady := false
  ackIn := false
  rxDone := false
  rxPayload := 0

/-- Every output 0 (log 4). -/
def Outputs.low : Outputs where
  bclk := false
  ws := false
  sd := false
  needSample := false
  ackOut := false
  stallOut := false
  zlpOut := false
  txStart := false
  txPayload := 0
  txMaxLen := 0
  rxStart := false
  rxMaxLen := 0

/-- `S_0` for the parameters `cfg` (R33, R50, R230). `T.cnt`, `T.bp`, `T.lb`, `T.np`, `T.gDiv`,
`T.gWid` and `H.gSetup` are unspecified there: DESIGN CHOICE zero, log 2. -/
def State.resetFor (cfg : Config) : State where
  cfg := cfg
  t :=
    { st := .idle, cnt := 0, clk := cfg.bclkReset, bp := 0, lb := 0, cur := .left, nxt := .right
      np := .left, gDiv := 0, gWid := 0 }
  h := { st := .idle, trig := false, pds := cfg.pdReset, gSetup := zeroSetup }
  inp := Inputs.quiet
  stim := []
  out := Outputs.low
  cycle := 0
  draws := 0

/-- The machine right after reset, with the parameters of the test vectors (log 1). -/
def State.reset : State := State.resetFor Config.vectors

end Sys2Proof.Machine
end

