-- ==== Sys2Proof/Machine/Operands.lean ====
section
/-! DEFINITION. Everything the operations read (spec/30_encoding.md R84 to R86, spec/20_memory.md R64):
the ports, the bits of a sample, the resolved selector of a CUR request. -/

namespace Sys2Proof.Machine

/-- `Left = 0`, `Right = 1` (R12). -/
def Channel.code : Channel → Bool
  | .left => false
  | .right => true

/-- `flip` (R12). -/
def Channel.flip : Channel → Channel
  | .left => .right
  | .right => .left

/-- ACTIVE_LEVEL: 0 for FALLING, 1 for RISING (R6). -/
def activeLevel (cfg : Config) : Bool :=
  match cfg.activeEdge with
  | .falling => false
  | .rising => true

/-- The resolved length of a request (R86): 1 for the power-domain control, 0 for any other selector. -/
def resolvedLength (cfg : Config) (f : Setup) : Length := if f.selPD cfg then 1 else 0

namespace State

/-- A number on the DIV_WIDTH bits of the divider port or of T.cnt (R21, R29; log 12). -/
def onDivBits (s : State) (n : Nat) : Nat := n % 2 ^ s.cfg.divWidth

/-- The `divider` port (R29). -/
def divider (s : State) : Nat := s.onDivBits s.inp.divider

/-- The `width` port (R30). -/
def width (s : State) : Width := s.inp.width

/-- `sample[c]` (R31, R61): the value the producer presents in this cycle. -/
def sampleOf (s : State) : Channel → Sample
  | .left => s.inp.sampleLeft
  | .right => s.inp.sampleRight

/-- `SampleBit(c, i)` for a bit index of the word (R64). -/
def sampleBit (s : State) (c : Channel) (i : Nat) : Bool := (s.sampleOf c).getLsbD i

/-- The SETUP ports (R45). -/
def setup (s : State) : Setup := s.inp.setup

/-- `eligible` (R85). -/
def eligible (s : State) : Bool := s.setup.eligible

/-- `isCur` (R85). -/
def isCur (s : State) : Bool := s.setup.isCur s.cfg

/-- `selPD` (R86). -/
def selPD (s : State) : Bool := s.setup.selPD s.cfg

/-- `resLen` (R86), 16 bits. -/
def resLen (s : State) : Length := resolvedLength s.cfg s.setup

/-- `PdsRead()` (R64). -/
def pdsRead (s : State) : Byte := s.h.pds

/-- `resVal` (R86), 8 bits. -/
def resVal (s : State) : Byte := if s.selPD then s.pdsRead else 0x00

/-- `lenMatch` (R86), a 16-bit compare. -/
def lenMatch (s : State) : Bool := s.setup.length == s.resLen

end State

end Sys2Proof.Machine
end

