-- ==== Sys2Proof/Machine/Flags.lean ====
section
/-! DEFINITION. The one-bit conditions the machine computes from a state and the inputs of its cycle:
the bits of the two event keys (spec/30_encoding.md R87, R88), the levels of T's outputs
(spec/41_audio_transmitter.md R110 to R113), and the protocol errors (spec/60_exceptions.md R200). -/

namespace Sys2Proof.Machine

namespace State

/-! ### The event keys -/

/-- S of R87. -/
def running (s : State) : Bool := s.t.st == .run

/-- Z of R87: streaming is disabled (R102). -/
def disabled (s : State) : Bool := s.divider == 0 || s.width == 0

/-- E of R87: the bit clock toggles if T is in RUN (R105). -/
def countDone (s : State) : Bool := s.t.cnt == s.divider

/-- A of R87: `newClk == ACTIVE_LEVEL` with `newClk = !T.clk` (R105). -/
def towardActive (s : State) : Bool := (!s.t.clk) == activeLevel s.cfg

/-- W of R87: the wrap marker (R107). -/
def atWrap (s : State) : Bool := s.t.bp == s.width

/-- B of R87: the last valid bit index (R109). -/
def atLastBit (s : State) : Bool := s.t.bp == s.t.lb

/-- The transmitter event key (R87). -/
def txKey (s : State) : TxKey where
  s := s.running
  z := s.disabled
  e := s.countDone
  a := s.towardActive
  w := s.atWrap
  b := s.atLastBit

/-- The handler event key (R88). -/
def handlerKey (s : State) : HandlerKey where
  s1 := s.h.st == .unhandled
  s0 := s.h.st == .handleCurrent
  v := s.inp.setupRcv && s.eligible
  c := s.isCur
  i := s.setup.isIn
  d := s.inp.dataReq
  q := s.inp.statusReq
  y := s.inp.rxReady
  k := s.inp.ackIn
  t := s.h.trig
  m := s.lenMatch
  p := s.selPD
  n := s.inp.rxDone

/-! ### The levels of T's outputs -/

/-- `bclk` (R110). -/
def bclkLevel (s : State) : Bool := s.t.clk

/-- `ws` (R111). -/
def wsLevel (s : State) : Bool := s.t.nxt.code

/-- The bit index of `sd`, `width - T.bp` on 5 bits (R112, R122). -/
def bitIndex (s : State) : Nat := (s.width - s.t.bp).toNat

/-- `sd` (R112): the bit of the active channel's word in RUN, a draw in IDLE. At an index above 23,
which no admitted run has (R34, R66), there is no such bit, and the level is a draw too (log 6). -/
def sdLevel (s : State) : Bool :=
  if s.running && decide (s.bitIndex ≤ 23) then s.sampleBit s.t.cur s.bitIndex else Config.freeSd s.draws

/-- `needSample` (R113): a function of state from cycle 1 on, a draw in cycle 0. -/
def needSampleLevel (s : State) : Bool :=
  if s.cycle = 0 then Config.freeNeedSample s.draws else s.t.nxt != s.t.cur && s.t.np == s.t.cur

end State

/-! ### The protocol errors -/

/-- The error taxonomy of R200, all of it of the control request handler. -/
inductive TransferError where
  /-- `UnsupportedRequest` (R201). -/
  | unsupportedRequest
  /-- `LengthMismatch` (R202). -/
  | lengthMismatch
  /-- `UnknownSelector` (R203). -/
  | unknownSelector
deriving DecidableEq, Repr

/-- The numeric codes of R200, which appear at no port. -/
def TransferError.code : TransferError → Nat
  | .unsupportedRequest => 1
  | .lengthMismatch => 2
  | .unknownSelector => 3

/-- The errors that the transfer in progress shows in this cycle (R201 to R203). -/
def State.transferErrors (s : State) : List TransferError :=
  match s.h.st with
  | .idle => []
  | .unhandled => [.unsupportedRequest]
  | .handleCurrent =>
    (if s.lenMatch then [] else [.lengthMismatch]) ++ (if s.selPD then [] else [.unknownSelector])

end Sys2Proof.Machine
end

