-- ==== Sys2Proof/Machine/Ops.lean ====
section
/-! DEFINITION. The named operations that the meanings are written from: register writes of T and H,
output assertions, the answer to a protocol error, the refusal checks, and the two ends of a cycle. -/

namespace Sys2Proof.Machine

/-! ### Registers of T (spec/41_audio_transmitter.md) -/

/-- What every toggle of the bit clock does (R105). -/
def TxRegs.toggle (t : TxRegs) : TxRegs := { t with cnt := 0, clk := !t.clk }

/-- What every toggle to the active edge does: the active channel becomes the pending one (R105). -/
def TxRegs.activeEdge (t : TxRegs) : TxRegs := { t.toggle with cur := t.nxt }

/-- IDLE holds the channels at their initial values (R102, R103). -/
def TxRegs.homeChannels (t : TxRegs) : TxRegs := { t with cur := .left, nxt := .right }

namespace State

/-- Write registers of T; everything else stays. -/
def mapT (s : State) (f : TxRegs → TxRegs) : State := { s with t := f s.t }

/-- Write registers of H; everything else stays. -/
def mapH (s : State) (f : HandlerRegs → HandlerRegs) : State := { s with h := f s.h }

/-- Assert or drive outputs of the cycle; everything else stays. -/
def mapOut (s : State) (f : Outputs → Outputs) : State := { s with out := f s.out }

/-! ### Registers of H (spec/42_control_handler.md) -/

/-- Start a transfer in the state `st` (R143, R144). -/
def dispatch (s : State) (st : HandlerState) : State :=
  s.mapH fun h => { h with st := st, trig := false, gSetup := s.setup }

/-- `goIdle` (R141): a return to IDLE by any operation wins over staying. -/
def goIdle (s : State) : State := s.mapH fun h => { h with st := .idle }

/-- `H.trig <- b` (R142, R151). -/
def writeTrig (s : State) (b : Bool) : State := s.mapH fun h => { h with trig := b }

/-- `PdsWrite(v)` (R64). -/
def pdsWrite (s : State) (v : Byte) : State := s.mapH fun h => { h with pds := v }

/-! ### Outputs -/

/-- `ackOut <- 1` (R48). -/
def assertAck (s : State) : State := s.mapOut fun o => { o with ackOut := true }

/-- `stallOut <- 1` (R48). -/
def assertStall (s : State) : State := s.mapOut fun o => { o with stallOut := true }

/-- `zlpOut <- 1` (R48). -/
def assertZlp (s : State) : State := s.mapOut fun o => { o with zlpOut := true }

/-- `txStart <- 1` (R49). -/
def assertTxStart (s : State) : State := s.mapOut fun o => { o with txStart := true }

/-- `rxStart <- 1` (R49). -/
def assertRxStart (s : State) : State := s.mapOut fun o => { o with rxStart := true }

/-- Drive the transmit adapter's ports (R146). -/
def driveTx (s : State) (payload : Byte) (maxLen : Length) : State :=
  s.mapOut fun o => { o with txPayload := payload, txMaxLen := maxLen }

/-- Drive the receive adapter's port (R150). -/
def driveRx (s : State) (maxLen : Length) : State := s.mapOut fun o => { o with rxMaxLen := maxLen }

/-- Error entry (R205): the answer to a protocol error is a STALL in this cycle and IDLE in the next.
Nothing is saved. There is no operation that returns from it: H is in IDLE already (R206). -/
def answerError (s : State) : State := s.assertStall.goIdle

/-! ### The refusal checks -/

/-- The checks of T: R114, then R115 (the order is the model's: log 9). -/
def refusalT (s : State) : Option Refusal :=
  if s.t.st = .run ∧ (s.divider ≠ s.t.gDiv ∨ s.width ≠ s.t.gWid) then some .reconfigInRun
  else if 23 < s.width.toNat then some .widthRange
  else none

/-- The checks of H: R160, then R161 (the order is the model's: log 9). -/
def refusalH (s : State) : Option Refusal :=
  if s.h.st ≠ .idle ∧ s.inp.setupRcv = true then some .setupMidTransfer
  else if s.h.st ≠ .idle ∧ s.setup ≠ s.h.gSetup then some .setupFieldsChanged
  else none

/-- The checks of a whole cycle, made before any operation (R100, R140, R209); T's first (log 9). -/
def refusal (s : State) : Option Refusal :=
  match s.refusalT with
  | some r => some r
  | none => s.refusalH

/-- An operation of T: its refusals (the Refusals line of R102 to R109), then its register writes. -/
def tickT (s : State) (f : TxRegs → TxRegs) : Host.Outcome State Fault Refusal :=
  match s.refusalT with
  | some r => .refused r
  | none => .next (s.mapT f)

/-- A request presented to H: the transaction layer drives its fields with `setupRcv` (R45, R91). It is
refused while H is not IDLE (R160); in IDLE the cycle goes on as `f` says. -/
def present (s : State) (req : Setup) (f : State → State) : Host.Outcome State Fault Refusal :=
  if s.h.st = .idle then .next (f { s with inp := { s.inp with setup := req, setupRcv := true } })
  else .refused .setupMidTransfer

end State

/-! ### The two ends of a cycle -/

/-- The inputs of a cycle that the stimulus names nothing for: pulses are 0, levels keep their values
(R91). -/
def Inputs.hold (i : Inputs) : Inputs :=
  { i with
    setupRcv := false, dataReq := false, statusReq := false, rxReady := false, ackIn := false, rxDone := false }

/-- The outputs of a cycle before any handler operation fires: T's four levels (R110 to R113), every
pulse 0 (R140), and draws on the adapter ports (R49). -/
def State.idleOutputs (s : State) : Outputs where
  bclk := s.bclkLevel
  ws := s.wsLevel
  sd := s.sdLevel
  needSample := s.needSampleLevel
  ackOut := false
  stallOut := false
  zlpOut := false
  txStart := false
  txPayload := Config.freeTxPayload s.draws
  txMaxLen := Config.freeTxMaxLen s.draws
  rxStart := false
  rxMaxLen := Config.freeRxMaxLen s.draws

/-- The start of a cycle. -/
def State.beginCycle (s : State) : State := { s with out := s.idleOutputs }

/-- The tick at the end of a cycle: the next cycle's inputs arrive (R7). -/
def State.endCycle (s : State) : State :=
  { s with
    inp := s.stim.headD s.inp.hold
    stim := s.stim.tail
    cycle := s.cycle + 1
    draws := s.draws + 1 }

/-! ### Loading a program from outside -/

/-- The stimulus program `l` (R91) in place of the inputs of this cycle and of those to come. -/
def State.withStimulus (s : State) (l : List Inputs) : State :=
  { s with inp := l.headD s.inp, stim := l.tail }

end Sys2Proof.Machine
end

