-- ==== Sys2Proof/Machine/HandlerGet.lean ====
section
/-! DEFINITION. The GET operations of the control request handler (spec/42_control_handler.md section
3.1). Each is the effect of its Pseudocode (log 10). -/

namespace Sys2Proof.Machine

/-- GET_DRIVE (R146). -/
def execGetDrive (s : State) : Host.Outcome State Fault Refusal :=
  .next (s.driveTx s.resVal s.resLen)

/-- GET_DATA_MATCH (R147). -/
def execGetDataMatch (s : State) : Host.Outcome State Fault Refusal :=
  .next s.assertTxStart

/-- GET_DATA_MISMATCH (R148): the LengthMismatch error is answered (R202). -/
def execGetDataMismatch (s : State) : Host.Outcome State Fault Refusal :=
  .next s.answerError

/-- GET_STATUS (R149). -/
def execGetStatus (s : State) : Host.Outcome State Fault Refusal :=
  .next s.assertAck.goIdle

end Sys2Proof.Machine
end

