-- ==== Sys2Proof/Machine/HandlerIdle.lean ====
section
/-! DEFINITION. The operations of the control request handler in IDLE (spec/42_control_handler.md
section 2). Each is the effect of its Pseudocode (log 10). -/

namespace Sys2Proof.Machine

/-- IDLE_IGNORE (R142). -/
def execIdleIgnore (s : State) : Host.Outcome State Fault Refusal :=
  .next (s.writeTrig false)

/-- IDLE_DISPATCH_CUR (R143). -/
def execIdleDispatchCur (s : State) : Host.Outcome State Fault Refusal :=
  .next (s.dispatch .handleCurrent)

/-- IDLE_DISPATCH_UNHANDLED (R144). -/
def execIdleDispatchUnhandled (s : State) : Host.Outcome State Fault Refusal :=
  .next (s.dispatch .unhandled)

end Sys2Proof.Machine
end

