-- ==== Sys2Proof/Machine/HandlerSet.lean ====
section
/-! DEFINITION. The SET operations of the control request handler (spec/42_control_handler.md section
3.2). Each is the effect of its Pseudocode (log 10). -/

namespace Sys2Proof.Machine

/-- SET_DRIVE (R150). -/
def execSetDrive (s : State) : Host.Outcome State Fault Refusal :=
  .next (s.driveRx s.resLen)

/-- SET_ARM (R151). -/
def execSetArm (s : State) : Host.Outcome State Fault Refusal :=
  .next (s.assertRxStart.writeTrig true)

/-- SET_MISMATCH (R152): the LengthMismatch error is answered (R202). -/
def execSetMismatch (s : State) : Host.Outcome State Fault Refusal :=
  .next s.answerError

/-- SET_COMMIT (R153). -/
def execSetCommit (s : State) : Host.Outcome State Fault Refusal :=
  .next (s.pdsWrite s.inp.rxPayload)

/-- SET_DISCARD (R154): no register or output changes. -/
def execSetDiscard (s : State) : Host.Outcome State Fault Refusal :=
  .next s

/-- SET_DATA_ACK (R155). -/
def execSetDataAck (s : State) : Host.Outcome State Fault Refusal :=
  .next s.assertAck

/-- SET_STATUS_ZLP (R156). -/
def execSetStatusZlp (s : State) : Host.Outcome State Fault Refusal :=
  .next s.assertZlp

/-- SET_DONE (R158). -/
def execSetDone (s : State) : Host.Outcome State Fault Refusal :=
  .next s.goIdle

end Sys2Proof.Machine
end

