-- ==== Sys2Proof/Machine/HandlerUnhandled.lean ====
section
/-! DEFINITION. The operations of the control request handler in UNHANDLED, and HOLD
(spec/42_control_handler.md sections 3 and 4). Each is the effect of its Pseudocode (log 10). -/

namespace Sys2Proof.Machine

/-- UNHANDLED_STALL on the data stage (R157): the UnsupportedRequest error is answered (R201). -/
def execUnhandledStallData (s : State) : Host.Outcome State Fault Refusal :=
  .next s.answerError

/-- UNHANDLED_STALL on the status stage (R157): the UnsupportedRequest error is answered (R201). -/
def execUnhandledStallStatus (s : State) : Host.Outcome State Fault Refusal :=
  .next s.answerError

/-- HOLD (R159): H waits, every register unchanged and no pulse asserted. -/
def execHold (s : State) : Host.Outcome State Fault Refusal :=
  .next s

end Sys2Proof.Machine
end

