-- ==== Sys2Proof/Machine/Requests.lean ====
section
/-! DEFINITION. The request classes (spec/30_encoding.md R83), as the cycle in which the transaction
layer presents a SETUP of that class: its fields go onto the SETUP ports, where they are held for the
transfer (R45), and an IDLE handler dispatches it as the class's row says (log 7). What the transfer
does after that is what the handler operations do with the held fields. -/

namespace Sys2Proof.Machine

/-- GET_CUR_PD (R83 row 1): HANDLE_CURRENT, a GET of `H.pds`. -/
def execGetCurPd (len : Length) (s : State) : Host.Outcome State Fault Refusal :=
  s.present (Setup.classRequest true s.cfg.curCode s.cfg.pdSelectorBytes len) fun s => s.dispatch .handleCurrent

/-- SET_CUR_PD (R83 row 2): HANDLE_CURRENT, a SET of `H.pds`. -/
def execSetCurPd (len : Length) (s : State) : Host.Outcome State Fault Refusal :=
  s.present (Setup.classRequest false s.cfg.curCode s.cfg.pdSelectorBytes len) fun s => s.dispatch .handleCurrent

/-- GET_CUR_OTHER (R83 row 3): HANDLE_CURRENT, a GET of length 0. -/
def execGetCurOther (sel : Selector) (len : Length) (s : State) : Host.Outcome State Fault Refusal :=
  s.present (Setup.classRequest true s.cfg.curCode sel len) fun s => s.dispatch .handleCurrent

/-- SET_CUR_OTHER (R83 row 4): HANDLE_CURRENT, a SET of length 0, data discarded. -/
def execSetCurOther (sel : Selector) (len : Length) (s : State) : Host.Outcome State Fault Refusal :=
  s.present (Setup.classRequest false s.cfg.curCode sel len) fun s => s.dispatch .handleCurrent

/-- CLASS_IF_OTHER (R83 row 5): UNHANDLED. -/
def execClassIfOther (isIn : Bool) (request : Byte) (sel : Selector) (len : Length) (s : State) :
    Host.Outcome State Fault Refusal :=
  s.present (Setup.classRequest isIn request sel len) fun s => s.dispatch .unhandled

/-- NOT_ELIGIBLE (R83 row 6): ignored, an IDLE cycle like any other (R142). -/
def execNotEligible (f : Setup) (s : State) : Host.Outcome State Fault Refusal :=
  s.present f fun s => s.writeTrig false

end Sys2Proof.Machine
end

