-- ==== Sys2Proof/Machine/Transmitter.lean ====
section
/-! DEFINITION. The operations of the serial audio transmitter (spec/41_audio_transmitter.md). Each is
the effect of its Pseudocode, after the refusals its rule names; that its key matches is the decoder's
matter (log 10). -/

namespace Sys2Proof.Machine

/-- NP_UPDATE (R101). -/
def execNpUpdate (s : State) : Host.Outcome State Fault Refusal :=
  .next (s.mapT fun t => { t with np := t.nxt })

/-- TX_IDLE_HOLD (R102). -/
def execTxIdleHold (s : State) : Host.Outcome State Fault Refusal :=
  s.tickT fun t => t.homeChannels

/-- TX_START (R103). -/
def execTxStart (s : State) : Host.Outcome State Fault Refusal :=
  s.tickT fun t =>
    { t.homeChannels with
      st := .run
      cnt := s.divider
      bp := s.width
      lb := s.width - 1
      gDiv := s.divider
      gWid := s.width }

/-- TX_COUNT (R104). -/
def execTxCount (s : State) : Host.Outcome State Fault Refusal :=
  s.tickT fun t => { t with cnt := s.onDivBits (t.cnt + 1) }

/-- TX_TOGGLE_INACTIVE (R106). -/
def execTxToggleInactive (s : State) : Host.Outcome State Fault Refusal :=
  s.tickT fun t => t.toggle

/-- TX_WRAP (R107). -/
def execTxWrap (s : State) : Host.Outcome State Fault Refusal :=
  s.tickT fun t => { t.activeEdge with bp := 0 }

/-- TX_ADVANCE (R108). -/
def execTxAdvance (s : State) : Host.Outcome State Fault Refusal :=
  s.tickT fun t => { t.activeEdge with bp := t.bp + 1 }

/-- TX_ADVANCE_FLIP (R109): `T.cur` takes the pending channel of before the flip. -/
def execTxAdvanceFlip (s : State) : Host.Outcome State Fault Refusal :=
  s.tickT fun t => { t.activeEdge with bp := t.bp + 1, nxt := t.nxt.flip }

end Sys2Proof.Machine
end

