-- ==== Sys2Proof/Machine/Dispatch.lean ====
section
/-! DEFINITION. One arm for each operation of spec/opcode_table.json. -/

namespace Sys2Proof.Machine

/-- The meaning of one operation. -/
def exec (i : Instr) (s : State) : Host.Outcome State Fault Refusal :=
  match i with
  -- request classes (spec/30_encoding.md R83)
  | .getCurPd len => Sys2Proof.Machine.execGetCurPd len s
  | .setCurPd len => Sys2Proof.Machine.execSetCurPd len s
  | .getCurOther sel len => Sys2Proof.Machine.execGetCurOther sel len s
  | .setCurOther sel len => Sys2Proof.Machine.execSetCurOther sel len s
  | .classIfOther isIn request sel len => Sys2Proof.Machine.execClassIfOther isIn request sel len s
  | .notEligible setup => Sys2Proof.Machine.execNotEligible setup s
  -- transmitter operations (spec/41_audio_transmitter.md)
  | .npUpdate => Sys2Proof.Machine.execNpUpdate s
  | .txIdleHold => Sys2Proof.Machine.execTxIdleHold s
  | .txStart => Sys2Proof.Machine.execTxStart s
  | .txCount => Sys2Proof.Machine.execTxCount s
  | .txToggleInactive => Sys2Proof.Machine.execTxToggleInactive s
  | .txWrap => Sys2Proof.Machine.execTxWrap s
  | .txAdvance => Sys2Proof.Machine.execTxAdvance s
  | .txAdvanceFlip => Sys2Proof.Machine.execTxAdvanceFlip s
  -- handler operations (spec/42_control_handler.md)
  | .idleIgnore => Sys2Proof.Machine.execIdleIgnore s
  | .idleDispatchCur => Sys2Proof.Machine.execIdleDispatchCur s
  | .idleDispatchUnhandled => Sys2Proof.Machine.execIdleDispatchUnhandled s
  | .getDrive => Sys2Proof.Machine.execGetDrive s
  | .getDataMatch => Sys2Proof.Machine.execGetDataMatch s
  | .getDataMismatch => Sys2Proof.Machine.execGetDataMismatch s
  | .getStatus => Sys2Proof.Machine.execGetStatus s
  | .setDrive => Sys2Proof.Machine.execSetDrive s
  | .setArm => Sys2Proof.Machine.execSetArm s
  | .setMismatch => Sys2Proof.Machine.execSetMismatch s
  | .setCommit => Sys2Proof.Machine.execSetCommit s
  | .setDiscard => Sys2Proof.Machine.execSetDiscard s
  | .setDataAck => Sys2Proof.Machine.execSetDataAck s
  | .setStatusZlp => Sys2Proof.Machine.execSetStatusZlp s
  | .setDone => Sys2Proof.Machine.execSetDone s
  | .unhandledStallData => Sys2Proof.Machine.execUnhandledStallData s
  | .unhandledStallStatus => Sys2Proof.Machine.execUnhandledStallStatus s
  | .hold => Sys2Proof.Machine.execHold s

end Sys2Proof.Machine
end

