-- ==== Sys2Proof/Machine/Cycle.lean ====
section
/-! DEFINITION. One cycle as fetch, decode and execute: the keys that the state and its inputs present
(spec/30_encoding.md R80, R87, R88), the operations they select, and their execution one after the
other (spec/41_audio_transmitter.md R100, spec/42_control_handler.md R140; log 8). Also the reverse, a
state that presents a given key, for loading one operation from outside (log 14). -/

namespace Sys2Proof.Machine

/-! ### The keys of a cycle -/

namespace State

/-- A SETUP is presented to an IDLE handler in this cycle. -/
def setupArrives (s : State) : Bool := s.h.st == .idle && s.inp.setupRcv

/-- The keys of this cycle: T's event key, the SETUP key of a request that arrives, H's event key. -/
def fetch (s : State) : List Encoded :=
  .tx s.txKey.toBits ::
    ((if s.setupArrives then [.setup s.setup.key s.setup.length] else []) ++ [.handler s.handlerKey.toBits])

/-- The operations that one key selects. The state code 11 is never fetched (`fetch_decodes` in
Laws/Cycle.lean), so no key of a cycle is without operations. -/
def operationsOf (cfg : Config) (e : Encoded) : List Instr :=
  match decode cfg e with
  | .ok l => l
  | .error _ => []

/-- The operations of this cycle, in the order they are executed. -/
def operations (s : State) : List Instr := s.fetch.flatMap (operationsOf s.cfg)

end State

/-- Execute operations one after the other. -/
def runOps : List Instr → State → Host.Outcome State Fault Refusal
  | [], s => .next s
  | i :: l, s =>
    match exec i s with
    | .next s' => runOps l s'
    | .fault r => .fault r
    | .refused r => .refused r

/-- A cycle without its refusal checks: the outputs start, the operations fire, the tick ends it. -/
def runCycle (s : State) : Host.Outcome State Fault Refusal :=
  match runOps s.operations s.beginCycle with
  | .next s' => .next s'.endCycle
  | .fault r => .fault r
  | .refused r => .refused r

/-! ### A state that presents a given key -/

namespace State

/-- T with inputs it admits: unchanged where it admits them, else back in IDLE with streaming
disabled. -/
def quietT (s : State) : State :=
  match s.refusalT with
  | none => s
  | some _ => { s with t := { s.t with st := .idle }, inp := { s.inp with divider := 0, width := 0 } }

/-- H with inputs it admits: unchanged where it admits them, else back in IDLE with no SETUP. -/
def quietH (s : State) : State :=
  match s.refusalH with
  | none => s
  | some _ => { s with h := { s.h with st := .idle }, inp := { s.inp with setupRcv := false } }

/-- An IDLE handler to which the SETUP of key `k` and length `len` is presented. -/
def placeSetup (s : State) (k : BitVec 48) (len : Length) : State :=
  { s.quietT with
    h := { s.h with st := .idle }
    inp := { s.quietT.inp with setup := Setup.ofKey k len, setupRcv := true } }

/-- A transmitter whose event key is `k`, by the tests of R87: width 2, divider 1 (0 for Z), the
registers where the bits of `k` ask for them. -/
def placeTx (s : State) (k : TxKey) : State :=
  let d : Nat := if k.z then 0 else 1
  let bp : Width := if k.w then 2 else 1
  { s.quietH with
    t :=
      { s.t with
        st := if k.s then .run else .idle
        cnt := if k.e then d else 1 - d
        clk := if k.a then !activeLevel s.cfg else activeLevel s.cfg
        bp := bp
        lb := if k.b then bp else bp + 1
        gDiv := d
        gWid := 2 }
    inp := { s.quietH.inp with divider := d, width := 2 } }

/-- SETUP fields of a class request with the C, I, P and M of the handler event key (R85, R86). -/
def setupFor (cfg : Config) (k : HandlerKey) : Setup :=
  Setup.classRequest k.i (if k.c then cfg.curCode else cfg.curCode + 1)
    (if k.p then cfg.pdSelectorBytes else { cfg.pdSelectorBytes with indexLow := 1 })
    (if k.p == k.m then 1 else 0)

/-- A handler whose event key is `k`, by the tests of R88. -/
def placeHandler (s : State) (k : HandlerKey) : State :=
  { s.quietT with
    h :=
      { s.h with
        st := if k.s1 then .unhandled else if k.s0 then .handleCurrent else .idle
        trig := k.t
        gSetup := setupFor s.cfg k }
    inp :=
      { s.quietT.inp with
        setup := setupFor s.cfg k
        setupRcv := k.v
        dataReq := k.d
        statusReq := k.q
        rxReady := k.y
        ackIn := k.k
        rxDone := k.n } }

/-- A state whose next cycle presents the key `e`. -/
def place (s : State) : Encoded → State
  | .setup k len => s.placeSetup k len
  | .tx k => s.placeTx (TxKey.ofBits k)
  | .handler k => s.placeHandler (HandlerKey.ofBits k)

end State

end Sys2Proof.Machine
end

