-- ==== Sys2Proof/Machine/Step.lean ====
section
/-! DEFINITION. One step of the machine is one tick (spec/00_scope.md R5, R7). -/

namespace Sys2Proof.Machine

/-- The refusal checks come before any operation (R100, R140, R209); an admitted cycle runs. -/
def step (s : State) : Host.Outcome State Fault Refusal :=
  match s.refusal with
  | some r => .refused r
  | none => runCycle s

/-- The state `s` with the key of a word of the opcode table placed where the next step fetches it; a
word that is no key changes nothing (log 14). -/
def State.withFetchWord (s : State) (nbits w : Nat) : State :=
  match encodedOfTable nbits w with
  | .ok e => s.place e
  | .error _ => s

end Sys2Proof.Machine
end

