-- ==== Sys2Proof/Safety.lean ====
section
/-! DEFINITION. What counts as a good state and a good run: the invariant that every step keeps
(spec/10_state.md R34 and what follows from it), the admitted cycles (spec/60_exceptions.md R207), and
runs of several ticks. -/

namespace Sys2Proof.Machine

/-- The cycle's inputs break no duty of the environment (R207, R216). -/
abbrev State.Admitted (s : State) : Prop := s.refusal = none

/-- What T admits: a constant configuration in RUN (R114) and a width of 0 to 23 (R115). -/
abbrev State.TxAdmitted (s : State) : Prop :=
  (s.t.st = .run → s.divider = s.t.gDiv ∧ s.width = s.t.gWid) ∧ s.width.toNat ≤ 23

/-- What H admits: outside IDLE, no SETUP (R160) and the SETUP fields held (R161). -/
abbrev State.HandlerAdmitted (s : State) : Prop :=
  s.h.st ≠ .idle → s.inp.setupRcv = false ∧ s.setup = s.h.gSetup

/-- `n` ticks; a refused cycle ends the run (R207). -/
def runTicks : Nat → State → Host.Outcome State Fault Refusal
  | 0, s => .next s
  | n + 1, s =>
    match step s with
    | .next s' => runTicks n s'
    | .fault r => .fault r
    | .refused r => .refused r

/-- T in IDLE holds the channels at their initial values (R25, R26). -/
abbrev TxRegs.IdleInv (t : TxRegs) : Prop := t.st = .idle → t.cur = .left ∧ t.nxt = .right

/-- T in RUN: the bounds of R34 on the values T was started with, and the pending channel differs from
the active one exactly on the last bit of a word (R107 to R109). -/
abbrev TxRegs.RunInv (t : TxRegs) : Prop :=
  t.st = .run →
    1 ≤ t.gDiv ∧ t.cnt ≤ t.gDiv ∧ 1 ≤ t.gWid.toNat ∧ t.gWid.toNat ≤ 23 ∧ t.bp.toNat ≤ t.gWid.toNat ∧
      t.lb = t.gWid - 1 ∧ (t.nxt ≠ t.cur ↔ t.bp = t.gWid)

/-- The DIV_WIDTH-bit registers hold DIV_WIDTH bits (R21, R28). -/
abbrev TxRegs.WidthInv (cfg : Config) (t : TxRegs) : Prop := t.cnt < 2 ^ cfg.divWidth ∧ t.gDiv < 2 ^ cfg.divWidth

/-- H outside IDLE serves an eligible request, a CUR one exactly in HANDLE_CURRENT (R143, R144). -/
abbrev HandlerRegs.ServeInv (cfg : Config) (h : HandlerRegs) : Prop :=
  h.st ≠ .idle → h.gSetup.eligible = true ∧ (h.st = .handleCurrent ↔ h.gSetup.isCur cfg = true)

/-- Outside IDLE the receive-trigger flag is set only in a SET transfer of the right length (R151). -/
abbrev HandlerRegs.TrigInv (cfg : Config) (h : HandlerRegs) : Prop :=
  h.st ≠ .idle → h.trig = true →
    h.st = .handleCurrent ∧ h.gSetup.isIn = false ∧ h.gSetup.length = resolvedLength cfg h.gSetup

/-- From cycle 1 on, IDLE has seen its own pending channel (R101, R113). -/
abbrev State.CopyInv (s : State) : Prop := s.t.st = .idle → s.cycle ≠ 0 → s.t.np = .right

/-- The invariant of the machine. -/
abbrev State.Inv (s : State) : Prop :=
  s.cfg.wf = true ∧ s.t.WidthInv s.cfg ∧ s.t.IdleInv ∧ s.t.RunInv ∧ s.h.ServeInv s.cfg ∧ s.h.TrigInv s.cfg ∧
    s.CopyInv

/-- Two transmitters that differ at most in registers that no cycle has written since reset (R33): the
counters and the latched configuration while T is in IDLE, the copy `T.np` in cycle 0. -/
abbrev TxRegs.AgreeOnWritten (t t' : TxRegs) (cycle : Nat) : Prop :=
  t'.st = t.st ∧ t'.clk = t.clk ∧ t'.cur = t.cur ∧ t'.nxt = t.nxt ∧ (cycle ≠ 0 → t'.np = t.np) ∧
    (t.st = .run → t' = t)

/-- Two handlers that differ at most in the latched SETUP fields of an IDLE one (R50). -/
abbrev HandlerRegs.AgreeOnWritten (h h' : HandlerRegs) : Prop :=
  h'.st = h.st ∧ h'.trig = h.trig ∧ h'.pds = h.pds ∧ (h.st ≠ .idle → h' = h)

/-- Two states that agree on everything that decides a cycle, but for registers that nothing has written
since reset. The outputs of the last cycle are left out: no cycle reads them. -/
abbrev State.AgreeOnWritten (s s' : State) : Prop :=
  s'.cfg = s.cfg ∧ s'.inp = s.inp ∧ s'.stim = s.stim ∧ s'.cycle = s.cycle ∧ s'.draws = s.draws ∧
    s.t.AgreeOnWritten s'.t s.cycle ∧ s.h.AgreeOnWritten s'.h

/-- Every cycle to come has the divider and width of this one (the duty of R216). -/
abbrev State.HeldConfig (s : State) : Prop :=
  ∀ i ∈ s.stim, i.divider = s.inp.divider ∧ i.width = s.inp.width

/-- The channel of word m after a start: Right for even m, Left for odd m (`ch(m)` of
spec/41_audio_transmitter.md section 6). -/
def wordChannel (m : Nat) : Channel := if m % 2 = 0 then .right else .left

/-- The first active toggle after a start from the clock level `c0`: `j0` of R116. -/
def firstActive (cfg : Config) (c0 : Bool) : Nat := if (!c0) = activeLevel cfg then 0 else 1

end Sys2Proof.Machine
end

