-- ==== Sys2Proof/Certificates/Slice0/Obligations.lean ====
section
/-! DEFINITION. The statements for the provers, from the numbered rules of spec/. A statement about an
operation says when it fires (its key), what it does to the whole state (an equality, so that it is its
frame and its completion at once), and where it is refused. The effect is stated for every state, not only
where the key matches, since the operations of a cycle run one after the other (log 8, log 10). -/

open Sys2Proof Sys2Proof.Machine

/-! ### Reset and the invariant -/

/-- R50, R230: for every value of the parameters, reset leaves T in IDLE with the channels Left and
Right and the bit clock at BCLK_RESET, and H in IDLE with the flag 0 and the setting PD_RESET. -/
def Obligations.ResetLeavesBothMachinesIdle : Prop :=
  ∀ cfg : Config,
    let s := State.resetFor cfg
    s.t.st = .idle ∧ s.t.cur = .left ∧ s.t.nxt = .right ∧ s.t.clk = cfg.bclkReset ∧
      s.h.st = .idle ∧ s.h.trig = false ∧ s.h.pds = cfg.pdReset

/-- The reset state, for every legal value of the parameters, meets the invariant. The parameter values of
`State.reset` are the model's choice (log 1), and so are the zeros of the registers that the spec leaves
unspecified (log 2). -/
def Obligations.ResetMeetsTheInvariant : Prop :=
  State.reset = State.resetFor Config.vectors ∧ ∀ cfg : Config, cfg.wf = true → (State.resetFor cfg).Inv

/-- R34 and what follows from R101 to R109 and R143 to R151: every step keeps the invariant. -/
def Obligations.StepKeepsTheInvariant : Prop :=
  ∀ s u : State, s.Inv → step s = .next u → u.Inv

/-- R34, R66, R122: in an admitted RUN cycle of a state with the invariant, the counter, the width and the
position are within their bounds, and none of T's sums and differences wraps around. -/
def Obligations.RunBoundsAndNoWraparound : Prop :=
  ∀ s u : State, s.Inv → s.t.st = .run → step s = .next u →
    1 ≤ s.divider ∧ s.t.cnt ≤ s.divider ∧ 1 ≤ s.width.toNat ∧ s.width.toNat ≤ 23 ∧
      s.t.bp.toNat ≤ s.width.toNat ∧ s.t.lb.toNat + 1 = s.width.toNat ∧
      (s.width - s.t.bp).toNat = s.width.toNat - s.t.bp.toNat ∧
      (s.t.cnt ≠ s.divider → u.t.cnt = s.t.cnt + 1) ∧
      (.txAdvance ∈ s.operations ∨ .txAdvanceFlip ∈ s.operations → u.t.bp.toNat = s.t.bp.toNat + 1)

/-! ### The step -/

/-- An admitted step runs NP_UPDATE, the one transmitter operation of T's key, the class of a request that
arrives, and the operations of H's key, each by exec, between the start and the tick of the cycle; and
each key decodes to those operations. Which operations a cycle has is R100's and R140's; that they run one
after the other in this order is the model's reading (log 8), and so is that the class of an arriving
request runs beside the handler operation of its dispatch (log 7). -/
def Obligations.StepRunsTheDecodedOperations : Prop :=
  ∀ s : State, s.TxAdmitted → s.HandlerAdmitted →
    ∃ (i : Instr) (c l : List Instr) (a b w : State),
      decode s.cfg (.tx s.txKey.toBits) = .ok [.npUpdate, i] ∧
      (if s.h.st = .idle ∧ s.inp.setupRcv = true
        then decode s.cfg (.setup s.inp.setup.key s.inp.setup.length) = .ok c else c = []) ∧
      decode s.cfg (.handler s.handlerKey.toBits) = .ok l ∧
      exec .npUpdate s.beginCycle = .next a ∧ exec i a = .next b ∧ runOps (c ++ l) b = .next w ∧
      step s = .next w.endCycle

/-- R13, R207, R114, R115, R160, R161: a cycle has a next state exactly when its inputs break no duty of
the environment. -/
def Obligations.StepAnswersExactlyWhenAdmitted : Prop :=
  ∀ s : State, (∃ u, step s = .next u) ↔ s.TxAdmitted ∧ s.HandlerAdmitted

/-- The code of a refused cycle. Where several conditions hold at once, the code is the model's choice
(log 9): T's before H's, R114's before R115's, R160's before R161's. -/
def Obligations.RefusedCyclesNameTheBrokenDuty : Prop :=
  ∀ s : State,
    (s.t.st = .run → s.divider ≠ s.t.gDiv ∨ s.width ≠ s.t.gWid → step s = .refused .reconfigInRun) ∧
    ((s.t.st = .run → s.divider = s.t.gDiv ∧ s.width = s.t.gWid) → 23 < s.width.toNat →
      step s = .refused .widthRange) ∧
    (s.TxAdmitted → s.h.st ≠ .idle → s.inp.setupRcv = true → step s = .refused .setupMidTransfer) ∧
    (s.TxAdmitted → s.h.st ≠ .idle → s.inp.setupRcv = false → s.inp.setup ≠ s.h.gSetup →
      step s = .refused .setupFieldsChanged)

/-- R7, and R91 as the model uses it for the inputs to come (log 3): a step keeps the parameters, counts
the cycle, and takes the next cycle's inputs from the stimulus, or, where that names none, keeps the
levels and clears the pulses. -/
def Obligations.StepAdvancesTheCycle : Prop :=
  ∀ s u : State, step s = .next u →
    u.cfg = s.cfg ∧ u.cycle = s.cycle + 1 ∧
      (∀ i l, s.stim = i :: l → u.inp = i ∧ u.stim = l) ∧
      (s.stim = [] → u.stim = [] ∧ u.inp =
        { s.inp with
          setupRcv := false, dataReq := false, statusReq := false, rxReady := false, ackIn := false
          rxDone := false })

/-! ### The outputs -/

/-- R110 to R113: the levels of T's outputs in an admitted cycle. -/
def Obligations.TransmitterOutputLevels : Prop :=
  ∀ s u : State, step s = .next u →
    u.out.bclk = s.t.clk ∧ (u.out.ws = true ↔ s.t.nxt = .right) ∧
      (s.Inv → s.t.st = .run →
        u.out.sd = (if s.t.cur = .left then s.inp.sampleLeft else s.inp.sampleRight).getLsbD
          (s.width - s.t.bp).toNat) ∧
      (s.cycle ≠ 0 → (u.out.needSample = true ↔ s.t.nxt ≠ s.t.cur ∧ s.t.np = s.t.cur))

/-- R111, R113 in IDLE: the channel-select line shows Right, and from cycle 1 on no sample is asked for. -/
def Obligations.IdleTransmitterIsSilent : Prop :=
  ∀ s u : State, s.Inv → s.t.st = .idle → step s = .next u →
    u.out.ws = true ∧ (s.cycle ≠ 0 → u.out.needSample = false)

/-- R141: what the operations of one cycle do together. A pulse is 1 exactly when an operation that fires
asserts it; in IDLE the state is the target of a dispatch; elsewhere any return to IDLE wins; the flag
and the setting are written by SET_ARM (or IDLE) and by SET_COMMIT, else unchanged. -/
def Obligations.OperationsOfACycleCombine : Prop :=
  ∀ s u : State, step s = .next u →
    (u.out.ackOut = true ↔ .getStatus ∈ s.operations ∨ .setDataAck ∈ s.operations) ∧
    (u.out.stallOut = true ↔ .getDataMismatch ∈ s.operations ∨ .setMismatch ∈ s.operations ∨
      .unhandledStallData ∈ s.operations ∨ .unhandledStallStatus ∈ s.operations) ∧
    (u.out.zlpOut = true ↔ .setStatusZlp ∈ s.operations) ∧
    (u.out.txStart = true ↔ .getDataMatch ∈ s.operations) ∧
    (u.out.rxStart = true ↔ .setArm ∈ s.operations) ∧
    (s.h.st = .idle → u.h.st =
      if .idleDispatchCur ∈ s.operations then .handleCurrent
      else if .idleDispatchUnhandled ∈ s.operations then .unhandled else .idle) ∧
    (s.h.st ≠ .idle → u.h.st =
      if .getDataMismatch ∈ s.operations ∨ .getStatus ∈ s.operations ∨ .setMismatch ∈ s.operations ∨
        .setDone ∈ s.operations ∨ .unhandledStallData ∈ s.operations ∨ .unhandledStallStatus ∈ s.operations
      then .idle else s.h.st) ∧
    u.h.trig = (if s.h.st = .idle then false else if .setArm ∈ s.operations then true else s.h.trig) ∧
    u.h.pds = (if .setCommit ∈ s.operations then s.inp.rxPayload else s.h.pds)

/-- R141, R69: the operations of H that fire in one cycle may be executed in any order. -/
def Obligations.FiringOrderIsImmaterial : Prop :=
  ∀ (s : State) (l : List Instr), l.Perm s.handlerKey.operations →
    runOps l s.beginCycle = runOps s.handlerKey.operations s.beginCycle

/-! ### Isolation -/

/-- R9, R70: T's registers and outputs depend on T's registers and inputs alone (and, where the spec
leaves a level open, on the free values). -/
def Obligations.TransmitterIgnoresTheHandler : Prop :=
  ∀ s s' u u' : State, s.cfg = s'.cfg → s.t = s'.t → s.inp.divider = s'.inp.divider →
    s.inp.width = s'.inp.width → step s = .next u → step s' = .next u' →
    u.t = u'.t ∧ u.out.bclk = u'.out.bclk ∧ u.out.ws = u'.out.ws ∧
      (s.inp.sampleLeft = s'.inp.sampleLeft → s.inp.sampleRight = s'.inp.sampleRight → s.cycle = s'.cycle →
        s.draws = s'.draws → u.out.sd = u'.out.sd ∧ u.out.needSample = u'.out.needSample)

/-- R9, R70: H's registers and pulses depend on H's registers and inputs alone. -/
def Obligations.HandlerIgnoresTheTransmitter : Prop :=
  ∀ s s' u u' : State, s.cfg = s'.cfg → s.h = s'.h → s.inp.setup = s'.inp.setup →
    s.inp.setupRcv = s'.inp.setupRcv → s.inp.dataReq = s'.inp.dataReq → s.inp.statusReq = s'.inp.statusReq →
    s.inp.rxReady = s'.inp.rxReady → s.inp.ackIn = s'.inp.ackIn → s.inp.rxDone = s'.inp.rxDone →
    s.inp.rxPayload = s'.inp.rxPayload → step s = .next u → step s' = .next u' →
    u.h = u'.h ∧ u.out.ackOut = u'.out.ackOut ∧ u.out.stallOut = u'.out.stallOut ∧ u.out.zlpOut = u'.out.zlpOut ∧
      u.out.txStart = u'.out.txStart ∧ u.out.rxStart = u'.out.rxStart

/-- R13, U9 to U11: a draw reaches no register and no pulse of H: two steps that differ in the draws alone
agree on everything else. -/
def Obligations.DrawsReachNoRegister : Prop :=
  ∀ (s u v : State) (a b : Nat), step { s with draws := a } = .next u → step { s with draws := b } = .next v →
    u.cfg = v.cfg ∧ u.t = v.t ∧ u.h = v.h ∧ u.inp = v.inp ∧ u.stim = v.stim ∧ u.cycle = v.cycle ∧
      u.out.bclk = v.out.bclk ∧ u.out.ws = v.out.ws ∧ u.out.ackOut = v.out.ackOut ∧
      u.out.stallOut = v.out.stallOut ∧ u.out.zlpOut = v.out.zlpOut ∧ u.out.txStart = v.out.txStart ∧
      u.out.rxStart = v.out.rxStart ∧
      (s.Inv → s.t.st = .run → u.out.sd = v.out.sd) ∧ (s.cycle ≠ 0 → u.out.needSample = v.out.needSample)

/-- R33, R50: the registers that reset leaves unspecified (log 2) reach nothing before they are written. Reset
states that differ in them alone agree on what is written; and of two states that agree on it, whatever T
and H are doing, a step of one is a step of the other, with the same outputs, to states that agree on it
again, and a refusal of one is the same refusal of the other. -/
def Obligations.UnspecifiedResetRegistersReachNothing : Prop :=
  (∀ (cfg : Config) (cnt gDiv : Nat) (bp lb gWid : Width) (np : Channel) (f : Setup),
    let s := State.resetFor cfg
    s.AgreeOnWritten
      { s with
        t := { s.t with cnt := cnt, bp := bp, lb := lb, np := np, gDiv := gDiv, gWid := gWid }
        h := { s.h with gSetup := f } }) ∧
  ∀ s s' : State, s.AgreeOnWritten s' →
    (∀ u, step s = .next u → ∃ u', step s' = .next u' ∧ u'.out = u.out ∧ u.AgreeOnWritten u') ∧
    ∀ r, step s = .refused r → step s' = .refused r

/-! ### Transmitter operations -/

/-- R101: on every tick, so that `T.np` is the pending channel of the cycle before. -/
def Obligations.NpUpdateCopiesThePendingChannel : Prop :=
  ∀ s : State, .npUpdate ∈ s.operations ∧
    exec .npUpdate s = .next { s with t := { s.t with np := s.t.nxt } } ∧
    ∀ u, step s = .next u → u.t.np = s.t.nxt

/-- R102. -/
def Obligations.TxIdleHoldKeepsStreamingWithheld : Prop :=
  ∀ s : State,
    (.txIdleHold ∈ s.operations ↔ s.t.st = .idle ∧ (s.divider = 0 ∨ s.width = 0)) ∧
    (s.TxAdmitted → exec .txIdleHold s = .next { s with t := { s.t with cur := .left, nxt := .right } }) ∧
    (s.t.st = .idle → 23 < s.width.toNat → exec .txIdleHold s = .refused .widthRange)

/-- R103, with the two ports that it and the other operations of T read (R29, R30). That the divider port
carries the low DIV_WIDTH bits of an input number too wide for it is the model's choice (log 12). -/
def Obligations.TxStartLoadsTheCountersAndRuns : Prop :=
  ∀ s : State,
    s.divider = s.inp.divider % 2 ^ s.cfg.divWidth ∧ s.width = s.inp.width ∧
    (.txStart ∈ s.operations ↔ s.t.st = .idle ∧ s.divider ≠ 0 ∧ s.width ≠ 0) ∧
    (s.TxAdmitted → exec .txStart s = .next
      { s with
        t :=
          { s.t with
            st := .run, cnt := s.divider, bp := s.width, lb := s.width - 1, cur := .left, nxt := .right
            gDiv := s.divider, gWid := s.width } }) ∧
    (s.t.st = .idle → 23 < s.width.toNat → exec .txStart s = .refused .widthRange)

/-- R104. -/
def Obligations.TxCountIncrementsTheCounter : Prop :=
  ∀ s : State,
    (.txCount ∈ s.operations ↔ s.t.st = .run ∧ s.t.cnt ≠ s.divider) ∧
    (s.TxAdmitted → exec .txCount s = .next
      { s with t := { s.t with cnt := (s.t.cnt + 1) % 2 ^ s.cfg.divWidth } }) ∧
    (s.t.st = .run → s.divider ≠ s.t.gDiv ∨ s.width ≠ s.t.gWid → exec .txCount s = .refused .reconfigInRun)

/-- R106. -/
def Obligations.TxToggleInactiveTogglesTheClock : Prop :=
  ∀ s : State,
    (.txToggleInactive ∈ s.operations ↔
      s.t.st = .run ∧ s.t.cnt = s.divider ∧ (!s.t.clk) ≠ activeLevel s.cfg) ∧
    (s.TxAdmitted → exec .txToggleInactive s = .next { s with t := { s.t with cnt := 0, clk := !s.t.clk } }) ∧
    (s.t.st = .run → s.divider ≠ s.t.gDiv ∨ s.width ≠ s.t.gWid →
      exec .txToggleInactive s = .refused .reconfigInRun)

/-- R107, with the level ACTIVE_LEVEL (R6) that it and the other toggles compare the new clock with. -/
def Obligations.TxWrapStartsANewWord : Prop :=
  ∀ s : State,
    (s.cfg.activeEdge = .falling → activeLevel s.cfg = false) ∧
    (s.cfg.activeEdge = .rising → activeLevel s.cfg = true) ∧
    (.txWrap ∈ s.operations ↔
      s.t.st = .run ∧ s.t.cnt = s.divider ∧ (!s.t.clk) = activeLevel s.cfg ∧ s.t.bp = s.width) ∧
    (s.TxAdmitted → exec .txWrap s = .next
      { s with t := { s.t with cnt := 0, clk := !s.t.clk, bp := 0, cur := s.t.nxt } }) ∧
    (s.t.st = .run → s.divider ≠ s.t.gDiv ∨ s.width ≠ s.t.gWid → exec .txWrap s = .refused .reconfigInRun)

/-- R108. -/
def Obligations.TxAdvanceMovesToTheNextBit : Prop :=
  ∀ s : State,
    (.txAdvance ∈ s.operations ↔
      s.t.st = .run ∧ s.t.cnt = s.divider ∧ (!s.t.clk) = activeLevel s.cfg ∧ s.t.bp ≠ s.width ∧
        s.t.bp ≠ s.t.lb) ∧
    (s.TxAdmitted → exec .txAdvance s = .next
      { s with t := { s.t with cnt := 0, clk := !s.t.clk, bp := s.t.bp + 1, cur := s.t.nxt } }) ∧
    (s.t.st = .run → s.divider ≠ s.t.gDiv ∨ s.width ≠ s.t.gWid → exec .txAdvance s = .refused .reconfigInRun)

/-- R109. -/
def Obligations.TxAdvanceFlipFlipsThePendingChannel : Prop :=
  ∀ s : State,
    (.txAdvanceFlip ∈ s.operations ↔
      s.t.st = .run ∧ s.t.cnt = s.divider ∧ (!s.t.clk) = activeLevel s.cfg ∧ s.t.bp ≠ s.width ∧
        s.t.bp = s.t.lb) ∧
    (s.TxAdmitted → exec .txAdvanceFlip s = .next
      { s with
        t :=
          { s.t with
            cnt := 0, clk := !s.t.clk, bp := s.t.bp + 1, cur := s.t.nxt
            nxt := if s.t.nxt = .left then .right else .left } }) ∧
    (s.t.st = .run → s.divider ≠ s.t.gDiv ∨ s.width ≠ s.t.gWid →
      exec .txAdvanceFlip s = .refused .reconfigInRun)

/-! ### Laws of the transmitter -/

/-- R123: RUN is left by no step; a change of the configuration in RUN ends the run, and the values T was
started with are kept. -/
def Obligations.RunIsLeftOnlyByReset : Prop :=
  ∀ s : State, s.t.st = .run →
    (s.divider ≠ s.t.gDiv ∨ s.width ≠ s.t.gWid → ∀ u, step s ≠ .next u) ∧
    ∀ u, step s = .next u → u.t.st = .run ∧ u.t.lb = s.t.lb ∧ u.t.gDiv = s.t.gDiv ∧ u.t.gWid = s.t.gWid

/-- R113, R119 (C2): the need-sample pulse lasts one cycle. -/
def Obligations.NeedSamplePulseLastsOneCycle : Prop :=
  ∀ s u v : State, s.Inv → s.cycle ≠ 0 → step s = .next u → step u = .next v →
    u.out.needSample = true → v.out.needSample = false

/-- R116, R117: in RUN with a held configuration, after k ticks the bit clock has toggled
`(T.cnt + k) / (divider + 1)` times and the counter is the remainder. So the clock keeps its level for
`divider - T.cnt` ticks, has the other level for the `divider + 1` ticks after them, and after
`2 * (divider + 1)` ticks clock and counter are back: the period. -/
def Obligations.BitClockTogglesEveryDividerPlusOneTicks : Prop :=
  ∀ (s u : State) (k : Nat), s.Inv → s.t.st = .run → s.HeldConfig → 0 < k → runTicks k s = .next u →
    u.t.st = .run ∧ u.t.cnt = (s.t.cnt + k) % (s.divider + 1) ∧
      u.t.clk = (if (s.t.cnt + k) / (s.divider + 1) % 2 = 0 then s.t.clk else !s.t.clk) ∧
      (k ≤ s.divider - s.t.cnt → u.t.clk = s.t.clk) ∧
      (s.divider - s.t.cnt < k → k ≤ s.divider - s.t.cnt + (s.divider + 1) → u.t.clk = !s.t.clk) ∧
      (k = 2 * (s.divider + 1) → u.t.clk = s.t.clk ∧ u.t.cnt = s.t.cnt)

/-- R118 (with R116): after a start with divider d and width w, held, the n-th active edge has shown its
position for r ticks: the position is n mod (w+1), the channel is that of word n / (w+1), the pending
channel that of word (n+1) / (w+1), and `sd` shows the word's bit w - (n mod (w+1)). -/
def Obligations.WordScheduleAfterAStart : Prop :=
  ∀ (s u : State) (n r : Nat), s.t.st = .idle → s.divider ≠ 0 → s.width ≠ 0 → s.HeldConfig →
    r < 2 * (s.divider + 1) →
    runTicks (2 + (firstActive s.cfg s.t.clk + 2 * n) * (s.divider + 1) + r) s = .next u →
    u.t.st = .run ∧ u.t.bp.toNat = n % (s.width.toNat + 1) ∧
      u.t.cur = wordChannel (n / (s.width.toNat + 1)) ∧ u.t.nxt = wordChannel ((n + 1) / (s.width.toNat + 1)) ∧
      u.t.cnt = r % (s.divider + 1) ∧
      u.t.clk = (if r < s.divider + 1 then activeLevel s.cfg else !activeLevel s.cfg) ∧
      u.sdLevel = (u.sampleOf u.t.cur).getLsbD (s.width.toNat - n % (s.width.toNat + 1))

/-- R118, R121: between a start and the first active edge, `sd` shows bit 0 of the Left sample. -/
def Obligations.BeforeTheFirstWordTheLeftBitIsShown : Prop :=
  ∀ (s u : State) (q : Nat), s.t.st = .idle → s.divider ≠ 0 → s.width ≠ 0 → s.HeldConfig →
    q < 1 + firstActive s.cfg s.t.clk * (s.divider + 1) → runTicks (1 + q) s = .next u →
    u.t.st = .run ∧ u.t.bp = s.width ∧ u.t.cur = .left ∧ u.t.nxt = .right ∧
      u.sdLevel = u.inp.sampleLeft.getLsbD 0

/-- R119: `needSample` is 1 exactly in the first cycle of the last bit of each word: r ticks after the n-th
active edge only for r = 0 and w + 1 dividing n + 1, and never from the first RUN cycle to the one before
the first active edge. -/
def Obligations.NeedSampleScheduleAfterAStart : Prop :=
  ∀ s : State, s.t.st = .idle → s.divider ≠ 0 → s.width ≠ 0 → s.HeldConfig →
    (∀ (u : State) (n r : Nat), r < 2 * (s.divider + 1) →
      runTicks (2 + (firstActive s.cfg s.t.clk + 2 * n) * (s.divider + 1) + r) s = .next u →
      (u.needSampleLevel = true ↔ r = 0 ∧ (n + 1) % (s.width.toNat + 1) = 0)) ∧
    (s.Inv → ∀ (u : State) (q : Nat), q < 1 + firstActive s.cfg s.t.clk * (s.divider + 1) →
      runTicks (1 + q) s = .next u → u.needSampleLevel = false)

/-! ### Request classes -/

/-- R83, R85, R86, R142 to R144, R160: the CUR classes. Each is the class of the fields it presents, holds
them on the ports, and sends an IDLE handler to HANDLE_CURRENT; a handler that is not IDLE refuses.
That a class is executed as its dispatch cycle is the model's reading (log 7). -/
def Obligations.CurRequestsDispatchToHandleCurrent : Prop :=
  ∀ (s : State) (sel : Selector) (len : Length),
    let pd : Selector := { valueHigh := s.cfg.pdSelector, valueLow := 0, indexHigh := s.cfg.acIf, indexLow := 0 }
    let req : Bool → Selector → Setup := fun isIn sel =>
      { isIn := isIn, typ := .classSpecific, recipient := .interface, request := s.cfg.curCode, sel := sel
        length := len }
    let taken : Setup → State := fun f =>
      { s with
        inp := { s.inp with setup := f, setupRcv := true }
        h := { s.h with st := .handleCurrent, trig := false, gSetup := f } }
    (s.h.st = .idle →
      exec (.getCurPd len) s = .next (taken (req true pd)) ∧
      exec (.setCurPd len) s = .next (taken (req false pd)) ∧
      exec (.getCurOther sel len) s = .next (taken (req true sel)) ∧
      exec (.setCurOther sel len) s = .next (taken (req false sel))) ∧
    (s.h.st ≠ .idle →
      exec (.getCurPd len) s = .refused .setupMidTransfer ∧ exec (.setCurPd len) s = .refused .setupMidTransfer ∧
      exec (.getCurOther sel len) s = .refused .setupMidTransfer ∧
      exec (.setCurOther sel len) s = .refused .setupMidTransfer) ∧
    (.getCurPd len ∈ s.operations ↔ s.h.st = .idle ∧ s.inp.setupRcv = true ∧ s.inp.setup = req true pd) ∧
    (.setCurPd len ∈ s.operations ↔ s.h.st = .idle ∧ s.inp.setupRcv = true ∧ s.inp.setup = req false pd) ∧
    (.getCurOther sel len ∈ s.operations ↔
      s.h.st = .idle ∧ s.inp.setupRcv = true ∧ sel ≠ pd ∧ s.inp.setup = req true sel) ∧
    (.setCurOther sel len ∈ s.operations ↔
      s.h.st = .idle ∧ s.inp.setupRcv = true ∧ sel ≠ pd ∧ s.inp.setup = req false sel)

/-- R83, R85, R142, R144, R160: the other two classes. CLASS_IF_OTHER sends an IDLE handler to UNHANDLED;
NOT_ELIGIBLE leaves it IDLE, with the flag cleared as in every IDLE cycle (log 7). -/
def Obligations.OtherRequestsGoUnhandledOrAreIgnored : Prop :=
  ∀ (s : State) (isIn : Bool) (request : Byte) (sel : Selector) (len : Length) (g : Setup),
    let f : Setup :=
      { isIn := isIn, typ := .classSpecific, recipient := .interface, request := request, sel := sel
        length := len }
    (s.h.st = .idle →
      exec (.classIfOther isIn request sel len) s = .next
        { s with
          inp := { s.inp with setup := f, setupRcv := true }
          h := { s.h with st := .unhandled, trig := false, gSetup := f } } ∧
      exec (.notEligible g) s = .next
        { s with inp := { s.inp with setup := g, setupRcv := true }, h := { s.h with trig := false } }) ∧
    (s.h.st ≠ .idle →
      exec (.classIfOther isIn request sel len) s = .refused .setupMidTransfer ∧
      exec (.notEligible g) s = .refused .setupMidTransfer) ∧
    (.classIfOther isIn request sel len ∈ s.operations ↔
      s.h.st = .idle ∧ s.inp.setupRcv = true ∧ request ≠ s.cfg.curCode ∧ s.inp.setup = f) ∧
    (.notEligible g ∈ s.operations ↔
      s.h.st = .idle ∧ s.inp.setupRcv = true ∧ (g.typ ≠ .classSpecific ∨ g.recipient ≠ .interface) ∧
        s.inp.setup = g)

/-- R86: the resolution of the selector, in every cycle. -/
def Obligations.SelectorResolution : Prop :=
  ∀ s : State,
    (s.selPD = true ↔ s.inp.setup.sel.indexLow = 0 ∧ s.inp.setup.sel.indexHigh = s.cfg.acIf ∧
      s.inp.setup.sel.valueLow = 0 ∧ s.inp.setup.sel.valueHigh = s.cfg.pdSelector) ∧
    s.resLen = (if s.selPD then 1 else 0) ∧ s.resVal = (if s.selPD then s.h.pds else 0x00) ∧
    (s.lenMatch = true ↔ s.inp.setup.length = s.resLen)

/-! ### Handler operations -/

/-- R142. -/
def Obligations.IdleIgnoreClearsTheFlag : Prop :=
  ∀ s : State,
    (.idleIgnore ∈ s.operations ↔ s.h.st = .idle ∧ ¬(s.inp.setupRcv = true ∧ s.eligible = true)) ∧
    exec .idleIgnore s = .next { s with h := { s.h with trig := false } }

/-- R143. -/
def Obligations.IdleDispatchCurStartsATransfer : Prop :=
  ∀ s : State,
    (.idleDispatchCur ∈ s.operations ↔
      s.h.st = .idle ∧ s.inp.setupRcv = true ∧ s.eligible = true ∧ s.isCur = true) ∧
    exec .idleDispatchCur s = .next
      { s with h := { s.h with st := .handleCurrent, trig := false, gSetup := s.inp.setup } }

/-- R144. -/
def Obligations.IdleDispatchUnhandledStartsATransfer : Prop :=
  ∀ s : State,
    (.idleDispatchUnhandled ∈ s.operations ↔
      s.h.st = .idle ∧ s.inp.setupRcv = true ∧ s.eligible = true ∧ s.isCur = false) ∧
    exec .idleDispatchUnhandled s = .next
      { s with h := { s.h with st := .unhandled, trig := false, gSetup := s.inp.setup } }

/-- R146. Outside GET cycles the two ports are draws (the model's free values, log 5), whatever these are. -/
def Obligations.GetDrivePresentsTheResolvedValue : Prop :=
  ∀ s : State,
    (.getDrive ∈ s.operations ↔ s.h.st = .handleCurrent ∧ s.inp.setup.isIn = true) ∧
    exec .getDrive s = .next
      { s with
        out :=
          { s.out with
            txPayload := if s.selPD then s.h.pds else 0x00
            txMaxLen := if s.selPD then 1 else 0 } } ∧
    (.getDrive ∈ s.operations → ∀ u, step s = .next u →
      u.out.txPayload = (if s.selPD then s.h.pds else 0x00) ∧ u.out.txMaxLen = (if s.selPD then 1 else 0) ∧
        u.h.pds = s.h.pds) ∧
    (.getDrive ∉ s.operations → ∀ u, step s = .next u →
      u.out.txPayload = Config.freeTxPayload s.draws ∧ u.out.txMaxLen = Config.freeTxMaxLen s.draws)

/-- R147. -/
def Obligations.GetDataMatchStartsTheTransmitAdapter : Prop :=
  ∀ s : State,
    (.getDataMatch ∈ s.operations ↔
      s.h.st = .handleCurrent ∧ s.inp.setup.isIn = true ∧ s.inp.dataReq = true ∧ s.lenMatch = true) ∧
    exec .getDataMatch s = .next { s with out := { s.out with txStart := true } }

/-- R148. -/
def Obligations.GetDataMismatchStallsTheTransfer : Prop :=
  ∀ s : State,
    (.getDataMismatch ∈ s.operations ↔
      s.h.st = .handleCurrent ∧ s.inp.setup.isIn = true ∧ s.inp.dataReq = true ∧ s.lenMatch = false) ∧
    exec .getDataMismatch s = .next
      { s with out := { s.out with stallOut := true }, h := { s.h with st := .idle } }

/-- R149. -/
def Obligations.GetStatusAcknowledgesAndFinishes : Prop :=
  ∀ s : State,
    (.getStatus ∈ s.operations ↔
      s.h.st = .handleCurrent ∧ s.inp.setup.isIn = true ∧ s.inp.statusReq = true) ∧
    exec .getStatus s = .next
      { s with out := { s.out with ackOut := true }, h := { s.h with st := .idle } }

/-- R150. Outside SET cycles the port is a draw (the model's free value, log 5), whatever it is. -/
def Obligations.SetDrivePresentsTheResolvedLength : Prop :=
  ∀ s : State,
    (.setDrive ∈ s.operations ↔ s.h.st = .handleCurrent ∧ s.inp.setup.isIn = false) ∧
    exec .setDrive s = .next { s with out := { s.out with rxMaxLen := if s.selPD then 1 else 0 } } ∧
    (.setDrive ∈ s.operations → ∀ u, step s = .next u → u.out.rxMaxLen = if s.selPD then 1 else 0) ∧
    (.setDrive ∉ s.operations → ∀ u, step s = .next u → u.out.rxMaxLen = Config.freeRxMaxLen s.draws)

/-- R151. -/
def Obligations.SetArmStartsTheReceiveAdapter : Prop :=
  ∀ s : State,
    (.setArm ∈ s.operations ↔
      s.h.st = .handleCurrent ∧ s.inp.setup.isIn = false ∧ s.h.trig = false ∧ s.lenMatch = true) ∧
    exec .setArm s = .next
      { s with out := { s.out with rxStart := true }, h := { s.h with trig := true } }

/-- R152. -/
def Obligations.SetMismatchStallsTheTransfer : Prop :=
  ∀ s : State,
    (.setMismatch ∈ s.operations ↔
      s.h.st = .handleCurrent ∧ s.inp.setup.isIn = false ∧ s.h.trig = false ∧ s.lenMatch = false) ∧
    exec .setMismatch s = .next
      { s with out := { s.out with stallOut := true }, h := { s.h with st := .idle } }

/-- R153: its effect, and that it is the only write of `H.pds`. -/
def Obligations.SetCommitStoresTheReceivedByte : Prop :=
  ∀ s : State,
    (.setCommit ∈ s.operations ↔
      s.h.st = .handleCurrent ∧ s.inp.setup.isIn = false ∧ s.selPD = true ∧ s.inp.rxDone = true) ∧
    exec .setCommit s = .next { s with h := { s.h with pds := s.inp.rxPayload } } ∧
    ∀ u, step s = .next u → u.h.pds = if .setCommit ∈ s.operations then s.inp.rxPayload else s.h.pds

/-- R154. -/
def Obligations.SetDiscardChangesNothing : Prop :=
  ∀ s : State,
    (.setDiscard ∈ s.operations ↔
      s.h.st = .handleCurrent ∧ s.inp.setup.isIn = false ∧ s.selPD = false ∧ s.inp.rxDone = true) ∧
    exec .setDiscard s = .next s

/-- R155. -/
def Obligations.SetDataAckAcknowledgesTheData : Prop :=
  ∀ s : State,
    (.setDataAck ∈ s.operations ↔
      s.h.st = .handleCurrent ∧ s.inp.setup.isIn = false ∧ s.inp.rxReady = true) ∧
    exec .setDataAck s = .next { s with out := { s.out with ackOut := true } }

/-- R156. -/
def Obligations.SetStatusZlpAnswersTheStatusStage : Prop :=
  ∀ s : State,
    (.setStatusZlp ∈ s.operations ↔
      s.h.st = .handleCurrent ∧ s.inp.setup.isIn = false ∧ s.inp.statusReq = true) ∧
    exec .setStatusZlp s = .next { s with out := { s.out with zlpOut := true } }

/-- R158. -/
def Obligations.SetDoneReturnsToIdle : Prop :=
  ∀ s : State,
    (.setDone ∈ s.operations ↔
      s.h.st = .handleCurrent ∧ s.inp.setup.isIn = false ∧ s.inp.ackIn = true) ∧
    exec .setDone s = .next { s with h := { s.h with st := .idle } }

/-- R157: both rows of UNHANDLED_STALL. -/
def Obligations.UnhandledStallAnswersTheFirstStage : Prop :=
  ∀ s : State,
    (.unhandledStallData ∈ s.operations ↔ s.h.st = .unhandled ∧ s.inp.dataReq = true) ∧
    (.unhandledStallStatus ∈ s.operations ↔ s.h.st = .unhandled ∧ s.inp.statusReq = true) ∧
    exec .unhandledStallData s = .next
      { s with out := { s.out with stallOut := true }, h := { s.h with st := .idle } } ∧
    exec .unhandledStallStatus s = .next
      { s with out := { s.out with stallOut := true }, h := { s.h with st := .idle } }

/-- R159: HOLD fires outside IDLE when no operation that writes a register or asserts a pulse does (log 18); the
cycle then leaves every register of H unchanged and asserts no pulse. -/
def Obligations.HoldWaitsForTheNextPulse : Prop :=
  ∀ s : State,
    (.hold ∈ s.operations ↔ s.h.st ≠ .idle ∧
      ∀ i ∈ [Instr.getDataMatch, .getDataMismatch, .getStatus, .setArm, .setMismatch, .setCommit, .setDataAck,
        .setStatusZlp, .setDone, .unhandledStallData, .unhandledStallStatus], i ∉ s.operations) ∧
    exec .hold s = .next s ∧
    (.hold ∈ s.operations → ∀ u, step s = .next u →
      u.h = s.h ∧ u.out.ackOut = false ∧ u.out.stallOut = false ∧ u.out.zlpOut = false ∧
        u.out.txStart = false ∧ u.out.rxStart = false)

/-! ### Laws of the handler -/

/-- R42, R153, R163: a step changes the setting only in a SET of the power-domain control with a received
byte, and then to that byte; where the receive adapter was started by the transfer, its length was 1. -/
def Obligations.SettingChangesOnlyByACommit : Prop :=
  ∀ s u : State, step s = .next u → u.h.pds ≠ s.h.pds →
    s.h.st = .handleCurrent ∧ s.inp.setup.isIn = false ∧ s.selPD = true ∧ s.inp.rxDone = true ∧
      u.h.pds = s.inp.rxPayload ∧ (s.Inv → s.h.trig = true → s.inp.setup.length = 1)

/-- R164, R71: the byte a SET commits is what a later GET of the power domain presents, if no commit comes
between; and two GET cycles of the power domain with no commit between present the same payload. -/
def Obligations.CommittedByteIsReadBack : Prop :=
  ∀ (s u v w : State) (n : Nat), step s = .next u → runTicks n u = .next v →
    (∀ k < n, ∀ x, runTicks k u = .next x → .setCommit ∉ x.operations) → v.selPD = true → step v = .next w →
    (.setCommit ∈ s.operations → .getDataMatch ∈ v.operations →
      w.out.txStart = true ∧ w.out.txPayload = s.inp.rxPayload ∧ w.out.txMaxLen = 1) ∧
    (.getDrive ∈ s.operations → s.selPD = true → .getDrive ∈ v.operations →
      w.out.txPayload = u.out.txPayload ∧ w.out.txPayload = s.h.pds)

/-- R151, R41: the receive adapter is started at most once in a transfer: the start sets the flag, and
outside IDLE the flag stays set and no start follows. -/
def Obligations.ReceiveAdapterStartsOncePerTransfer : Prop :=
  ∀ s u : State, step s = .next u →
    (u.out.rxStart = true → s.h.trig = false ∧ u.h.trig = true) ∧
    (s.h.st ≠ .idle → s.h.trig = true → u.out.rxStart = false ∧ u.h.trig = true)

/-- R162 (C8): the transitions of H, and the ways a transfer ends. -/
def Obligations.HandlerTakesOneTransferAtATime : Prop :=
  ∀ s u : State, step s = .next u →
    (s.h.st = .idle → u.h.st ≠ .idle →
      (u.h.st = .handleCurrent ∧ .idleDispatchCur ∈ s.operations ∨
        u.h.st = .unhandled ∧ .idleDispatchUnhandled ∈ s.operations) ∧ u.h.gSetup = s.inp.setup) ∧
    (s.h.st ≠ .idle → s.inp.setupRcv = false ∧ u.h.gSetup = s.h.gSetup ∧ (u.h.st = s.h.st ∨ u.h.st = .idle)) ∧
    (s.h.st ≠ .idle → u.h.st = .idle →
      u.out.stallOut = true ∨ (s.inp.setup.isIn = true ∧ u.out.ackOut = true) ∨
        (s.inp.setup.isIn = false ∧ s.inp.ackIn = true))

/-- R201, R202, R205: a STALL is the answer to an unsupported request or a length mismatch; in its cycle
no adapter is started, and H is IDLE in the next. -/
def Obligations.StallAnswersAnErrorAndReturnsToIdle : Prop :=
  ∀ s u : State, step s = .next u → u.out.stallOut = true →
    u.h.st = .idle ∧ u.out.txStart = false ∧ u.out.rxStart = false ∧
      (TransferError.unsupportedRequest ∈ s.transferErrors ∨ TransferError.lengthMismatch ∈ s.transferErrors)

/-- R165, R203: a CUR request for another selector has length 0: with length 0 a GET starts the adapter
with length 0 and a SET arms it with length 0; with any other length they stall; the setting never
changes. -/
def Obligations.UnknownSelectorHasLengthZero : Prop :=
  ∀ s u : State, step s = .next u → s.h.st = .handleCurrent → s.selPD = false →
    u.h.pds = s.h.pds ∧
    (s.inp.setup.isIn = true → s.inp.dataReq = true → s.inp.setup.length = 0 →
      u.out.txStart = true ∧ u.out.txMaxLen = 0 ∧ u.out.txPayload = 0x00) ∧
    (s.inp.setup.isIn = true → s.inp.dataReq = true → s.inp.setup.length ≠ 0 →
      u.out.stallOut = true ∧ u.h.st = .idle) ∧
    (s.inp.setup.isIn = false → s.h.trig = false → s.inp.setup.length = 0 →
      u.out.rxStart = true ∧ u.out.rxMaxLen = 0) ∧
    (s.inp.setup.isIn = false → s.h.trig = false → s.inp.setup.length ≠ 0 →
      u.out.stallOut = true ∧ u.h.st = .idle)

/-! ### Encodings -/

/-- R82, R83, R87, R88: decoding the key of a well-formed operation gives the operation back, with all its
operands; a request class alone, a tick operation among those its key selects, and last among them for
every operation but NP_UPDATE, whose row matches every key (log 13). -/
def Obligations.DecodeInvertsEncode : Prop :=
  ∀ (cfg : Config) (i : Instr), i.wf cfg = true →
    ∃ l, decode cfg (encode cfg i) = .ok l ∧ i ∈ l ∧ (i ≠ .npUpdate → l.getLast? = some i) ∧
      ((∃ k len, encode cfg i = .setup k len) → l = [i])

/-- R83: for the parameters of the opcode table, the class of a SETUP key is the first of the six rows of
the table that matches it, whatever the length. -/
def Obligations.RequestClassIsTheFirstMatchingRow : Prop :=
  ∀ (k : BitVec 48) (len : Length), ∃ i, decode Config.vectors (.setup k len) = .ok [i] ∧
    i.row =
      [Row.mk 0xFFFFFFFFFFFF 0xA10102000B00, ⟨0xFFFFFFFFFFFF, 0x210102000B00⟩, ⟨0xFFFF00000000, 0xA10100000000⟩,
        ⟨0xFFFF00000000, 0x210100000000⟩, ⟨0x7F0000000000, 0x210000000000⟩,
        ⟨0x000000000000, 0x000000000000⟩].find? (·.fits k)

/-- R87, R88: a tick operation with a bit pattern in the opcode table is selected by exactly the keys that
match its pattern, in T's space exactly one beside NP_UPDATE; the handler's state code 11 is rejected. -/
def Obligations.EventKeysSelectTheMatchingRows : Prop :=
  (∀ (cfg : Config) (k : BitVec 6), ∃ i r, decode cfg (.tx k) = .ok [.npUpdate, i] ∧ i.row = some r ∧
    r.fits k = true ∧
    ∀ j ∈ [Instr.txIdleHold, .txStart, .txCount, .txToggleInactive, .txWrap, .txAdvance, .txAdvanceFlip],
      ∀ r', j.row = some r' → r'.fits k = true → j = i) ∧
  ∀ (cfg : Config) (k : BitVec 13),
    (k.getLsbD 12 = true ∧ k.getLsbD 11 = true → decode cfg (.handler k) = .error .unreachableHandlerState) ∧
    (¬(k.getLsbD 12 = true ∧ k.getLsbD 11 = true) → ∃ l, decode cfg (.handler k) = .ok l ∧
      ∀ i ∈ [Instr.idleIgnore, .idleDispatchCur, .idleDispatchUnhandled, .getDrive, .getDataMatch,
        .getDataMismatch, .getStatus, .setDrive, .setArm, .setMismatch, .setCommit, .setDiscard, .setDataAck,
        .setStatusZlp, .setDone, .unhandledStallData, .unhandledStallStatus],
        ∀ r, i.row = some r → (i ∈ l ↔ r.fits k = true))

/-- R83, R87, R88: a few words of the opcode table and of the vectors K1, K5, K7, K11, T-S10, H8 and H16,
written out bit by bit. That `decodeTableWord` reads a SETUP key with length 0, takes a transmitter key in
a whole byte and answers the last operation of the key's list is the model's choice (log 13). -/
def Obligations.WordsOfTheTableDecode : Prop :=
  decodeTableWord 48 0xA10102000B00 = some (.getCurPd 0) ∧
  decodeTableWord 48 0x210102000C00 = some (.setCurOther ⟨0x02, 0x00, 0x0C, 0x00⟩ 0) ∧
  decodeTableWord 48 0xA10202000B00 = some (.classIfOther true 0x02 ⟨0x02, 0x00, 0x0B, 0x00⟩ 0) ∧
  decodeTableWord 48 0xC10102000B00 =
    some (.notEligible ⟨true, .vendor, .interface, 0x01, ⟨0x02, 0x00, 0x0B, 0x00⟩, 0⟩) ∧
  decodeTableWord 8 0b101100 = some .txAdvance ∧
  decode Config.vectors (.handler 0b0101111000110) = .ok [.getDrive, .getDataMatch, .getStatus] ∧
  decode Config.vectors (.handler 0b0101000100010) = .ok [.setDrive, .setMismatch, .setDataAck]
end

