-- ==== Sys2Proof/Laws/Keys.lean ====
section
/-! SUPPORT. A key taken apart and put together again is the same key. -/

namespace Sys2Proof

@[simp] theorem TxKey.ofBits_toBits (k : TxKey) : TxKey.ofBits k.toBits = k := by
  cases k
  simp only [TxKey.ofBits, TxKey.toBits, BitVec.getLsbD_ofBoolListLE, List.getD_cons_succ, List.getD_cons_zero]

@[simp] theorem HandlerKey.ofBits_toBits (k : HandlerKey) : HandlerKey.ofBits k.toBits = k := by
  cases k
  simp only [HandlerKey.ofBits, HandlerKey.toBits, BitVec.getLsbD_ofBoolListLE, List.getD_cons_succ,
    List.getD_cons_zero]

@[simp] theorem SetupType.ofCode_code (t : SetupType) : SetupType.ofCode t.code = t := by
  cases t <;> rfl

@[simp] theorem Recipient.ofCode_code (r : Recipient) : Recipient.ofCode r.code = r := by
  cases r with
  | reserved n => revert n; decide
  | _ => rfl

/-- A field of a concatenation that lies wholly in its upper part. -/
theorem extract_upper {v w : Nat} (hi : BitVec v) (lo : BitVec w) (start len : Nat) (h : w ≤ start) :
    (hi ++ lo).extractLsb' start len = hi.extractLsb' (start - w) len :=
  BitVec.extractLsb'_append_eq_of_le h

/-- The key K and the length determine the SETUP fields (R82). -/
@[simp] theorem Setup.ofKey_key (f : Setup) : Setup.ofKey f.key f.length = f := by
  obtain ⟨i, t, r, q, ⟨vh, vl, ih, il⟩, l⟩ := f
  have hi : (Setup.key ⟨i, t, r, q, ⟨vh, vl, ih, il⟩, l⟩).getLsbD 47 = i := by
    simp only [Setup.key, BitVec.getLsbD_append]
    simp
  have ht : (Setup.key ⟨i, t, r, q, ⟨vh, vl, ih, il⟩, l⟩).extractLsb' 45 2 = t.code := by
    simp (disch := omega) only [Setup.key, extract_upper]
    exact BitVec.extractLsb'_append_eq_right
  have hr : (Setup.key ⟨i, t, r, q, ⟨vh, vl, ih, il⟩, l⟩).extractLsb' 40 5 = r.code := by
    simp (disch := omega) only [Setup.key, extract_upper]
    exact BitVec.extractLsb'_append_eq_right
  have hq : (Setup.key ⟨i, t, r, q, ⟨vh, vl, ih, il⟩, l⟩).extractLsb' 32 8 = q := by
    simp (disch := omega) only [Setup.key, extract_upper]
    exact BitVec.extractLsb'_append_eq_right
  have hvh : (Setup.key ⟨i, t, r, q, ⟨vh, vl, ih, il⟩, l⟩).extractLsb' 24 8 = vh := by
    simp (disch := omega) only [Setup.key, extract_upper]
    exact BitVec.extractLsb'_append_eq_right
  have hvl : (Setup.key ⟨i, t, r, q, ⟨vh, vl, ih, il⟩, l⟩).extractLsb' 16 8 = vl := by
    simp (disch := omega) only [Setup.key, extract_upper]
    exact BitVec.extractLsb'_append_eq_right
  have hih : (Setup.key ⟨i, t, r, q, ⟨vh, vl, ih, il⟩, l⟩).extractLsb' 8 8 = ih := by
    simp (disch := omega) only [Setup.key, extract_upper]
    exact BitVec.extractLsb'_append_eq_right
  have hil : (Setup.key ⟨i, t, r, q, ⟨vh, vl, ih, il⟩, l⟩).extractLsb' 0 8 = il :=
    BitVec.extractLsb'_append_eq_right
  simp only [Setup.ofKey, hi, ht, hr, hq, hvh, hvl, hih, hil, SetupType.ofCode_code, Recipient.ofCode_code]

end Sys2Proof
end

