-- ==== Sys2Proof/Laws/State.lean ====
section
/-! SUPPORT. One lemma per field per update of the state, each true by unfolding one update. -/

namespace Sys2Proof.Machine.State

/-! ### Updates of one part -/

@[simp] theorem mapT_cfg (s : State) (f) : (s.mapT f).cfg = s.cfg := rfl
@[simp] theorem mapT_t (s : State) (f) : (s.mapT f).t = f s.t := rfl
@[simp] theorem mapT_h (s : State) (f) : (s.mapT f).h = s.h := rfl
@[simp] theorem mapT_inp (s : State) (f) : (s.mapT f).inp = s.inp := rfl
@[simp] theorem mapT_stim (s : State) (f) : (s.mapT f).stim = s.stim := rfl
@[simp] theorem mapT_out (s : State) (f) : (s.mapT f).out = s.out := rfl
@[simp] theorem mapT_cycle (s : State) (f) : (s.mapT f).cycle = s.cycle := rfl
@[simp] theorem mapT_draws (s : State) (f) : (s.mapT f).draws = s.draws := rfl

@[simp] theorem mapH_cfg (s : State) (f) : (s.mapH f).cfg = s.cfg := rfl
@[simp] theorem mapH_t (s : State) (f) : (s.mapH f).t = s.t := rfl
@[simp] theorem mapH_h (s : State) (f) : (s.mapH f).h = f s.h := rfl
@[simp] theorem mapH_inp (s : State) (f) : (s.mapH f).inp = s.inp := rfl
@[simp] theorem mapH_stim (s : State) (f) : (s.mapH f).stim = s.stim := rfl
@[simp] theorem mapH_out (s : State) (f) : (s.mapH f).out = s.out := rfl
@[simp] theorem mapH_cycle (s : State) (f) : (s.mapH f).cycle = s.cycle := rfl
@[simp] theorem mapH_draws (s : State) (f) : (s.mapH f).draws = s.draws := rfl

@[simp] theorem mapOut_cfg (s : State) (f) : (s.mapOut f).cfg = s.cfg := rfl
@[simp] theorem mapOut_t (s : State) (f) : (s.mapOut f).t = s.t := rfl
@[simp] theorem mapOut_h (s : State) (f) : (s.mapOut f).h = s.h := rfl
@[simp] theorem mapOut_inp (s : State) (f) : (s.mapOut f).inp = s.inp := rfl
@[simp] theorem mapOut_stim (s : State) (f) : (s.mapOut f).stim = s.stim := rfl
@[simp] theorem mapOut_out (s : State) (f) : (s.mapOut f).out = f s.out := rfl
@[simp] theorem mapOut_cycle (s : State) (f) : (s.mapOut f).cycle = s.cycle := rfl
@[simp] theorem mapOut_draws (s : State) (f) : (s.mapOut f).draws = s.draws := rfl

/-! ### The two ends of a cycle -/

@[simp] theorem beginCycle_cfg (s : State) : s.beginCycle.cfg = s.cfg := rfl
@[simp] theorem beginCycle_t (s : State) : s.beginCycle.t = s.t := rfl
@[simp] theorem beginCycle_h (s : State) : s.beginCycle.h = s.h := rfl
@[simp] theorem beginCycle_inp (s : State) : s.beginCycle.inp = s.inp := rfl
@[simp] theorem beginCycle_stim (s : State) : s.beginCycle.stim = s.stim := rfl
@[simp] theorem beginCycle_out (s : State) : s.beginCycle.out = s.idleOutputs := rfl
@[simp] theorem beginCycle_cycle (s : State) : s.beginCycle.cycle = s.cycle := rfl
@[simp] theorem beginCycle_draws (s : State) : s.beginCycle.draws = s.draws := rfl

@[simp] theorem endCycle_cfg (s : State) : s.endCycle.cfg = s.cfg := rfl
@[simp] theorem endCycle_t (s : State) : s.endCycle.t = s.t := rfl
@[simp] theorem endCycle_h (s : State) : s.endCycle.h = s.h := rfl
@[simp] theorem endCycle_inp (s : State) : s.endCycle.inp = s.stim.headD s.inp.hold := rfl
@[simp] theorem endCycle_stim (s : State) : s.endCycle.stim = s.stim.tail := rfl
@[simp] theorem endCycle_out (s : State) : s.endCycle.out = s.out := rfl
@[simp] theorem endCycle_cycle (s : State) : s.endCycle.cycle = s.cycle + 1 := rfl
@[simp] theorem endCycle_draws (s : State) : s.endCycle.draws = s.draws + 1 := rfl

/-! ### Held inputs -/

@[simp] theorem hold_divider (i : Inputs) : i.hold.divider = i.divider := rfl
@[simp] theorem hold_width (i : Inputs) : i.hold.width = i.width := rfl
@[simp] theorem hold_sampleLeft (i : Inputs) : i.hold.sampleLeft = i.sampleLeft := rfl
@[simp] theorem hold_sampleRight (i : Inputs) : i.hold.sampleRight = i.sampleRight := rfl
@[simp] theorem hold_setup (i : Inputs) : i.hold.setup = i.setup := rfl
@[simp] theorem hold_setupRcv (i : Inputs) : i.hold.setupRcv = false := rfl
@[simp] theorem hold_dataReq (i : Inputs) : i.hold.dataReq = false := rfl
@[simp] theorem hold_statusReq (i : Inputs) : i.hold.statusReq = false := rfl
@[simp] theorem hold_rxReady (i : Inputs) : i.hold.rxReady = false := rfl
@[simp] theorem hold_ackIn (i : Inputs) : i.hold.ackIn = false := rfl
@[simp] theorem hold_rxDone (i : Inputs) : i.hold.rxDone = false := rfl
@[simp] theorem hold_rxPayload (i : Inputs) : i.hold.rxPayload = i.rxPayload := rfl

end Sys2Proof.Machine.State

namespace Sys2Proof.Machine

/-! ### Toggles of T -/

@[simp] theorem toggle_cnt (t : TxRegs) : t.toggle.cnt = 0 := rfl
@[simp] theorem toggle_clk (t : TxRegs) : t.toggle.clk = !t.clk := rfl
@[simp] theorem activeEdge_cnt (t : TxRegs) : t.activeEdge.cnt = 0 := rfl
@[simp] theorem activeEdge_clk (t : TxRegs) : t.activeEdge.clk = !t.clk := rfl
@[simp] theorem activeEdge_cur (t : TxRegs) : t.activeEdge.cur = t.nxt := rfl
@[simp] theorem activeEdge_nxt (t : TxRegs) : t.activeEdge.nxt = t.nxt := rfl
@[simp] theorem homeChannels_cur (t : TxRegs) : t.homeChannels.cur = .left := rfl
@[simp] theorem homeChannels_nxt (t : TxRegs) : t.homeChannels.nxt = .right := rfl

@[simp] theorem flip_flip (c : Channel) : c.flip.flip = c := by cases c <;> rfl
@[simp] theorem flip_ne (c : Channel) : c.flip ≠ c := by cases c <;> simp [Channel.flip]

end Sys2Proof.Machine
end

