-- ==== Sys2Proof/Laws/Ops.lean ====
section
/-! SUPPORT. One lemma for each shared operation that says once everything it can do. -/

namespace Sys2Proof.Machine

/-! ### Operations of H and of the outputs, as updates of one part -/

namespace State

@[simp] theorem dispatch_eq (s : State) (st : HandlerState) :
    s.dispatch st = s.mapH fun h => { h with st := st, trig := false, gSetup := s.setup } := rfl
@[simp] theorem goIdle_eq (s : State) : s.goIdle = s.mapH fun h => { h with st := .idle } := rfl
@[simp] theorem writeTrig_eq (s : State) (b : Bool) : s.writeTrig b = s.mapH fun h => { h with trig := b } := rfl
@[simp] theorem pdsWrite_eq (s : State) (v : Byte) : s.pdsWrite v = s.mapH fun h => { h with pds := v } := rfl
@[simp] theorem assertAck_eq (s : State) : s.assertAck = s.mapOut fun o => { o with ackOut := true } := rfl
@[simp] theorem assertStall_eq (s : State) : s.assertStall = s.mapOut fun o => { o with stallOut := true } := rfl
@[simp] theorem assertZlp_eq (s : State) : s.assertZlp = s.mapOut fun o => { o with zlpOut := true } := rfl
@[simp] theorem assertTxStart_eq (s : State) : s.assertTxStart = s.mapOut fun o => { o with txStart := true } := rfl
@[simp] theorem assertRxStart_eq (s : State) : s.assertRxStart = s.mapOut fun o => { o with rxStart := true } := rfl
@[simp] theorem driveTx_eq (s : State) (p : Byte) (l : Length) :
    s.driveTx p l = s.mapOut fun o => { o with txPayload := p, txMaxLen := l } := rfl
@[simp] theorem driveRx_eq (s : State) (l : Length) : s.driveRx l = s.mapOut fun o => { o with rxMaxLen := l } := rfl
@[simp] theorem answerError_eq (s : State) :
    s.answerError = (s.mapOut fun o => { o with stallOut := true }).mapH fun h => { h with st := .idle } := rfl

/-! ### Refusals -/

/-- A cycle is admitted when neither machine refuses it. -/
theorem refusal_none_iff (s : State) : s.refusal = none ↔ s.refusalT = none ∧ s.refusalH = none := by
  unfold refusal
  cases s.refusalT <;> simp

/-- What T admits (R114, R115). -/
theorem refusalT_none_iff (s : State) :
    s.refusalT = none ↔
      (s.t.st = .run → s.divider = s.t.gDiv ∧ s.width = s.t.gWid) ∧ s.width.toNat ≤ 23 := by
  unfold refusalT
  split
  · rename_i h
    simp only [reduceCtorEq, false_iff, not_and]
    rcases h with ⟨hr, hd | hw⟩
    · exact fun g => absurd (g hr).1 hd
    · exact fun g => absurd (g hr).2 hw
  · rename_i h
    have : s.t.st = .run → s.divider = s.t.gDiv ∧ s.width = s.t.gWid := by
      intro hr
      constructor <;> (by_contra hn; exact h ⟨hr, by tauto⟩)
    split <;> simp <;> first | exact ⟨this, by omega⟩ | exact fun _ => by omega

/-- What H admits (R160, R161). -/
theorem refusalH_none_iff (s : State) :
    s.refusalH = none ↔ (s.h.st ≠ .idle → s.inp.setupRcv = false ∧ s.setup = s.h.gSetup) := by
  unfold refusalH
  by_cases h0 : s.h.st = .idle
  · simp [h0]
  · by_cases h1 : s.inp.setupRcv = true
    · simp [h0, h1]
    · by_cases h2 : s.setup = s.h.gSetup <;> simp [h0, h1, h2]

/-- An operation of T answers a next state exactly when T admits the cycle, and then writes registers of
T alone. -/
theorem tickT_next_iff (s : State) (f : TxRegs → TxRegs) (u : State) :
    s.tickT f = .next u ↔ s.refusalT = none ∧ u = s.mapT f := by
  unfold tickT
  cases s.refusalT <;> simp [eq_comm]

theorem tickT_admitted {s : State} (h : s.refusalT = none) (f : TxRegs → TxRegs) :
    s.tickT f = .next (s.mapT f) := by
  simp [tickT, h]

/-- A request is taken exactly by an IDLE handler (R160). -/
theorem present_next_iff (s : State) (req : Setup) (f : State → State) (u : State) :
    s.present req f = .next u ↔
      s.h.st = .idle ∧ u = f { s with inp := { s.inp with setup := req, setupRcv := true } } := by
  unfold present
  split <;> simp_all [eq_comm]

/-- What T refuses does not depend on the outputs of the cycle. -/
@[simp] theorem refusalT_beginCycle (s : State) : s.beginCycle.refusalT = s.refusalT := rfl

end State

end Sys2Proof.Machine
end

