-- ==== Sys2Proof/Laws/Cycle.lean ====
section
/-! SUPPORT. What one cycle does: the keys it fetches all decode, its operations run one after the other
without a refusal once the cycle is admitted, and the next state has a closed form. -/

namespace Sys2Proof.Machine

/-! ### Fetch and decode -/

/-- The state code 11 is never fetched (R89). -/
theorem handlerKey_legal (s : State) : (s.handlerKey.s1 && s.handlerKey.s0) = false := by
  cases h : s.h.st <;> simp [State.handlerKey, h]

/-- Every key of a cycle decodes. -/
theorem fetch_decodes (s : State) : ∀ e ∈ s.fetch, ∃ l, decode s.cfg e = .ok l := by
  intro e he
  simp only [State.fetch, List.mem_cons, List.mem_append, List.not_mem_nil, or_false] at he
  rcases he with rfl | he | rfl
  · exact ⟨_, rfl⟩
  · split at he
    · simp only [List.mem_cons, List.not_mem_nil, or_false] at he
      exact ⟨_, by rw [he]; rfl⟩
    · simp at he
  · exact ⟨s.handlerKey.operations, by simp [decode, HandlerKey.decode, handlerKey_legal]⟩

/-- The class operation of a cycle in which a request arrives (R83). -/
def arrivals (s : State) : List Instr := if s.setupArrives then [s.setup.requestClass s.cfg] else []

/-- The operations of a cycle: NP_UPDATE, one transmitter operation (R100), the class of a request that
arrives, and every handler operation that fires (R140). -/
theorem operations_eq (s : State) :
    s.operations =
      .npUpdate :: s.txKey.operation :: (arrivals s ++ s.handlerKey.operations) := by
  have hh : State.operationsOf s.cfg (.handler s.handlerKey.toBits) = s.handlerKey.operations := by
    simp [State.operationsOf, decode, HandlerKey.decode, handlerKey_legal]
  have ht : State.operationsOf s.cfg (.tx s.txKey.toBits) = [.npUpdate, s.txKey.operation] := by
    simp [State.operationsOf, decode]
  have hs : State.operationsOf s.cfg (.setup s.setup.key s.setup.length) = [s.setup.requestClass s.cfg] := by
    simp [State.operationsOf, decode]
  unfold State.operations State.fetch arrivals
  split <;> simp [hh, ht, hs]

/-! ### Running operations -/

@[simp] theorem runOps_nil (s : State) : runOps [] s = .next s := rfl

theorem runOps_cons_next {i : Instr} {s v : State} (h : exec i s = .next v) (l : List Instr) :
    runOps (i :: l) s = runOps l v := by
  simp [runOps, h]

theorem runOps_append_next {l : List Instr} {s v : State} (h : runOps l s = .next v) (m : List Instr) :
    runOps (l ++ m) s = runOps m v := by
  induction l generalizing s with
  | nil => simp only [runOps_nil, Host.Outcome.next.injEq] at h; simp [h]
  | cons i l ih =>
    cases he : exec i s with
    | next w =>
      rw [runOps_cons_next he] at h
      rw [List.cons_append, runOps_cons_next he]
      exact ih h
    | fault r => simp [runOps, he] at h
    | refused r => simp [runOps, he] at h

/-! ### The transmitter's part -/

/-- The register writes of a transmitter operation, read off the state of the cycle. -/
def txWrites (s : State) : TxRegs :=
  if s.running then
    if s.countDone then
      if s.towardActive then
        if s.atWrap then { s.t.activeEdge with bp := 0, np := s.t.nxt }
        else if s.atLastBit then { s.t.activeEdge with bp := s.t.bp + 1, nxt := s.t.nxt.flip, np := s.t.nxt }
        else { s.t.activeEdge with bp := s.t.bp + 1, np := s.t.nxt }
      else { s.t.toggle with np := s.t.nxt }
    else { s.t with cnt := s.onDivBits (s.t.cnt + 1), np := s.t.nxt }
  else if s.disabled then { s.t.homeChannels with np := s.t.nxt }
  else
    { s.t.homeChannels with
      st := .run, cnt := s.divider, bp := s.width, lb := s.width - 1, gDiv := s.divider, gWid := s.width
      np := s.t.nxt }

/-- NP_UPDATE and the one transmitter operation of the cycle (R100). -/
theorem transmitter_ops_next {s : State} (h : s.refusalT = none) (l : List Instr) :
    runOps (.npUpdate :: s.txKey.operation :: l) s.beginCycle =
      runOps l (s.beginCycle.mapT fun _ => txWrites s) := by
  have hn : exec .npUpdate s.beginCycle = .next (s.beginCycle.mapT fun t => { t with np := t.nxt }) := rfl
  rw [runOps_cons_next hn]
  have hr : (s.beginCycle.mapT fun t => { t with np := t.nxt }).refusalT = none := h
  have ht : exec s.txKey.operation (s.beginCycle.mapT fun t => { t with np := t.nxt }) =
      .next (s.beginCycle.mapT fun _ => txWrites s) := by
    unfold txWrites TxKey.operation State.txKey
    cases s.running <;> cases s.disabled <;> cases s.countDone <;> cases s.towardActive <;> cases s.atWrap <;>
      cases s.atLastBit <;> exact State.tickT_admitted hr _
  rw [runOps_cons_next ht]

/-! ### The handler's part -/

/-- The effect of an operation that has no refusal and does not depend on T. -/
def handlerEffect (i : Instr) (s : State) : State :=
  match exec i s with
  | .next u => u
  | .fault _ => s
  | .refused _ => s

/-- Apply the operations of the rows whose condition holds. -/
def applyRows (rows : List (Bool × Instr)) (s : State) : State :=
  rows.foldl (fun s r => if r.1 then handlerEffect r.2 s else s) s

/-- Every operation in the list of rows answers a next state in every state. -/
def AlwaysNext (rows : List (Bool × Instr)) : Prop :=
  ∀ r ∈ rows, ∀ s, exec r.2 s = .next (handlerEffect r.2 s)

theorem runOps_firing {rows : List (Bool × Instr)} (h : AlwaysNext rows) (s : State) :
    runOps (firing rows) s = .next (applyRows rows s) := by
  induction rows generalizing s with
  | nil => rfl
  | cons r rows ih =>
    have ih := ih (fun r' hr' => h r' (List.mem_cons_of_mem _ hr'))
    obtain ⟨b, i⟩ := r
    cases b with
    | false => simpa [firing, applyRows] using ih s
    | true =>
      have hi := h (true, i) (List.mem_cons_self ..) s
      simpa [firing, applyRows, runOps_cons_next hi] using ih (handlerEffect i s)

/-- All rows of the handler's table, in the order they are executed. -/
def allRows (k : HandlerKey) : List (Bool × Instr) := k.restRows ++ (k.actingRows ++ k.discardRows)

theorem handler_rows_next (k : HandlerKey) : AlwaysNext (allRows k) := by
  intro r hr s
  simp only [allRows, HandlerKey.restRows, HandlerKey.actingRows, HandlerKey.discardRows, List.cons_append,
    List.nil_append, List.mem_cons, List.not_mem_nil, or_false] at hr
  rcases hr with rfl | rfl | rfl | rfl | rfl | rfl | rfl | rfl | rfl | rfl | rfl | rfl | rfl | rfl | rfl | rfl |
    rfl | rfl <;> rfl

/-- The handler operations of a cycle never refuse. -/
theorem handler_ops_next (k : HandlerKey) (s : State) :
    runOps k.operations s = .next (applyRows (allRows k) s) :=
  runOps_firing (handler_rows_next k) s

end Sys2Proof.Machine
end

