-- ==== Sys2Proof/Laws/Step.lean ====
section
/-! SUPPORT. The closed form of a step: what the operations of one admitted cycle do together to the
registers and to the outputs. Later proofs cite `step_next_iff` and never unfold a cycle. -/

namespace Sys2Proof.Machine

/-- The registers of H in the next state (R141 to R159). -/
def handlerWrites (s : State) : HandlerRegs :=
  match s.h.st with
  | .idle =>
    if s.inp.setupRcv && s.eligible then
      { s.h with st := if s.isCur then .handleCurrent else .unhandled, trig := false, gSetup := s.setup }
    else { s.h with trig := false }
  | .handleCurrent =>
    if s.setup.isIn then
      { s.h with st := if s.inp.dataReq && !s.lenMatch || s.inp.statusReq then .idle else .handleCurrent }
    else
      { s.h with
        st := if !s.h.trig && !s.lenMatch || s.inp.ackIn then .idle else .handleCurrent
        trig := s.h.trig || s.lenMatch
        pds := if s.selPD && s.inp.rxDone then s.inp.rxPayload else s.h.pds }
  | .unhandled => { s.h with st := if s.inp.dataReq || s.inp.statusReq then .idle else .unhandled }

/-- The outputs of the cycle (R110 to R113, R140 to R159). -/
def cycleOutputs (s : State) : Outputs :=
  match s.h.st with
  | .idle => s.idleOutputs
  | .handleCurrent =>
    if s.setup.isIn then
      { s.idleOutputs with
        txPayload := s.resVal
        txMaxLen := s.resLen
        txStart := s.inp.dataReq && s.lenMatch
        stallOut := s.inp.dataReq && !s.lenMatch
        ackOut := s.inp.statusReq }
    else
      { s.idleOutputs with
        rxMaxLen := s.resLen
        rxStart := !s.h.trig && s.lenMatch
        stallOut := !s.h.trig && !s.lenMatch
        ackOut := s.inp.rxReady
        zlpOut := s.inp.statusReq }
  | .unhandled => { s.idleOutputs with stallOut := s.inp.dataReq || s.inp.statusReq }


/-- The rows of IDLE (R142 to R144). -/
theorem applyRows_idle (k : HandlerKey) (v : State) (h1 : k.s1 = false) (h0 : k.s0 = false) :
    applyRows (allRows k) v =
      v.mapH fun h =>
        if k.v then { h with st := if k.c then .handleCurrent else .unhandled, trig := false, gSetup := v.setup }
        else { h with trig := false } := by
  obtain ⟨s1, s0, kv, kc, ki, kd, kq, ky, kk, kt, km, kp, kn⟩ := k
  simp only at h1 h0
  subst h1 h0
  cases kv <;> cases kc <;> rfl

/-- The rows of a GET (R146 to R149). -/
theorem applyRows_get (k : HandlerKey) (v : State) (h1 : k.s1 = false) (h0 : k.s0 = true) (hi : k.i = true)
    (hs : v.h.st = .handleCurrent) :
    applyRows (allRows k) v =
      (v.mapH fun h => { h with st := if k.d && !k.m || k.q then .idle else .handleCurrent }).mapOut fun o =>
        { o with
          txPayload := v.resVal
          txMaxLen := v.resLen
          txStart := o.txStart || (k.d && k.m)
          stallOut := o.stallOut || (k.d && !k.m)
          ackOut := o.ackOut || k.q } := by
  obtain ⟨s1, s0, kv, kc, ki, kd, kq, ky, kk, kt, km, kp, kn⟩ := k
  obtain ⟨c, t, ⟨st, tr, pd, g⟩, i, sm, ⟨b, ws, sd, ne, ak, sl, z, ts, tp, tm, rs, rm⟩, cy, dr⟩ := v
  simp only at h1 h0 hi hs
  subst h1 h0 hi hs
  cases kd <;> cases kq <;> cases km <;> cases ak <;> cases sl <;> cases ts <;> rfl

/-- The rows of a SET (R150 to R156, R158). -/
theorem applyRows_set (k : HandlerKey) (v : State) (h1 : k.s1 = false) (h0 : k.s0 = true) (hi : k.i = false)
    (hs : v.h.st = .handleCurrent) (ht : v.h.trig = k.t) (ho : v.out.ackOut = false ∧ v.out.stallOut = false
      ∧ v.out.zlpOut = false ∧ v.out.rxStart = false) :
    applyRows (allRows k) v =
      (v.mapH fun h =>
          { h with
            st := if !k.t && !k.m || k.k then .idle else .handleCurrent
            trig := k.t || k.m
            pds := if k.p && k.n then v.inp.rxPayload else h.pds }).mapOut fun o =>
        { o with
          rxMaxLen := v.resLen
          rxStart := !k.t && k.m
          stallOut := !k.t && !k.m
          ackOut := k.y
          zlpOut := k.q } := by
  obtain ⟨s1, s0, kv, kc, ki, kd, kq, ky, kk, kt, km, kp, kn⟩ := k
  obtain ⟨c, t, ⟨st, tr, pd, g⟩, i, sm, ⟨b, ws, sd, ne, ak, sl, z, ts, tp, tm, rs, rm⟩, cy, dr⟩ := v
  obtain ⟨h3, h4, h5, h6⟩ := ho
  simp only at h1 h0 hi hs ht h3 h4 h5 h6
  subst h1 h0 hi hs ht h3 h4 h5 h6
  cases tr <;> cases km <;> cases kp <;> cases kn <;> cases ky <;> cases kq <;> cases kk <;> rfl

/-- The rows of UNHANDLED (R157). -/
theorem applyRows_unhandled (k : HandlerKey) (v : State) (h1 : k.s1 = true) (h0 : k.s0 = false)
    (hs : v.h.st = .unhandled) :
    applyRows (allRows k) v =
      (v.mapH fun h => { h with st := if k.d || k.q then .idle else .unhandled }).mapOut fun o =>
        { o with stallOut := o.stallOut || (k.d || k.q) } := by
  obtain ⟨s1, s0, kv, kc, ki, kd, kq, ky, kk, kt, km, kp, kn⟩ := k
  obtain ⟨c, t, ⟨st, tr, pd, g⟩, i, sm, ⟨b, ws, sd, ne, ak, sl, z, ts, tp, tm, rs, rm⟩, cy, dr⟩ := v
  simp only at h1 h0 hs
  subst h1 h0 hs
  cases kd <;> cases kq <;> cases sl <;> rfl

/-- The handler operations of a cycle of `s`, from the cycle's start or from after T's part of it. -/
theorem handler_rows_effect (s v : State) (hc : v.cfg = s.cfg) (hh : v.h = s.h) (hi : v.inp = s.inp)
    (ho : v.out = s.idleOutputs) :
    applyRows (allRows s.handlerKey) v = { v with h := handlerWrites s, out := cycleOutputs s } := by
  have hset : v.setup = s.setup := by simp [State.setup, hi]
  have hlen : v.resLen = s.resLen := by rw [State.resLen, State.resLen, hset, hc]
  have hval : v.resVal = s.resVal := by
    rw [State.resVal, State.resVal, State.selPD, State.selPD, State.pdsRead, State.pdsRead, hset, hc, hh]
  cases hst : s.h.st with
  | idle =>
    rw [applyRows_idle _ _ (by simp [State.handlerKey, hst]) (by simp [State.handlerKey, hst])]
    simp only [State.mapH, handlerWrites, cycleOutputs, hst, hset, hh, State.handlerKey, ← ho]
  | handleCurrent =>
    cases hin : s.setup.isIn with
    | true =>
      rw [applyRows_get _ _ (by simp [State.handlerKey, hst]) (by simp [State.handlerKey, hst])
        (by simp [State.handlerKey, hin]) (by simp [hh, hst])]
      simp [State.mapH, State.mapOut, handlerWrites, cycleOutputs, hst, hin, hlen, hval, hh, ho,
        State.idleOutputs, State.handlerKey]
    | false =>
      rw [applyRows_set _ _ (by simp [State.handlerKey, hst]) (by simp [State.handlerKey, hst])
        (by simp [State.handlerKey, hin]) (by simp [hh, hst]) (by simp [hh, State.handlerKey])
        (by simp [ho, State.idleOutputs])]
      simp [State.mapH, State.mapOut, handlerWrites, cycleOutputs, hst, hin, hlen, hh, hi, ho,
        State.idleOutputs, State.handlerKey]
  | unhandled =>
    rw [applyRows_unhandled _ _ (by simp [State.handlerKey, hst]) (by simp [State.handlerKey, hst])
      (by simp [hh, hst])]
    simp [State.mapH, State.mapOut, handlerWrites, cycleOutputs, hst, hh, ho, State.idleOutputs, State.handlerKey]

/-! ### A request that arrives -/

theorem eligible_iff (f : Setup) : f.eligible = true ↔ f.typ = .classSpecific ∧ f.recipient = .interface := by
  simp [Setup.eligible]

/-- The selector of a request for the power-domain control (R86). -/
theorem selPD_iff (cfg : Config) (f : Setup) : f.selPD cfg = true ↔ f.sel = cfg.pdSelectorBytes := by
  obtain ⟨i, t, r, q, ⟨vh, vl, ih, il⟩, l⟩ := f
  simp [Setup.selPD, Config.pdSelectorBytes]
  tauto

/-- An eligible request is the class request of its own fields. -/
theorem classRequest_self {f : Setup} (h : f.eligible = true) :
    Setup.classRequest f.isIn f.request f.sel f.length = f := by
  obtain ⟨ht, hr⟩ := (eligible_iff f).1 h
  cases f
  simp_all [Setup.classRequest]

/-- The class of a request, executed where the request stands on the ports of an IDLE handler (R83). -/
theorem requestClass_exec {v : State} (hst : v.h.st = .idle) (hr : v.inp.setupRcv = true) :
    exec (v.setup.requestClass v.cfg) v =
      .next (if v.eligible then v.dispatch (if v.isCur then .handleCurrent else .unhandled) else v.writeTrig false) := by
  have hself : { v with inp := { v.inp with setup := v.setup, setupRcv := true } } = v := by
    obtain ⟨c, t, h, i, st, o, cy, dr⟩ := v
    obtain ⟨a, b, d, e, f, g, j, k, l, m, n, o'⟩ := i
    simp only at hr
    subst hr
    rfl
  have hp : ∀ f, v.present v.setup f = .next (f v) := by
    intro f
    rw [State.present, if_pos hst, hself]
  cases he : v.setup.eligible with
  | false =>
    have : v.setup.requestClass v.cfg = .notEligible v.setup := by simp [Setup.requestClass, he]
    rw [this]
    simpa [exec, execNotEligible, State.eligible, he] using hp fun s => s.writeTrig false
  | true =>
    have hreq := classRequest_self he
    cases hq : v.setup.isCur v.cfg with
    | false =>
      have : v.setup.requestClass v.cfg =
          .classIfOther v.setup.isIn v.setup.request v.setup.sel v.setup.length := by
        simp [Setup.requestClass, he, hq]
      rw [this]
      simpa [exec, execClassIfOther, State.eligible, State.isCur, he, hq, hreq] using hp fun s => s.dispatch .unhandled
    | true =>
      have hcur : v.setup.request = v.cfg.curCode := by simpa [Setup.isCur] using hq
      rw [hcur] at hreq
      cases hs : v.setup.selPD v.cfg with
      | false =>
        cases hi : v.setup.isIn with
        | false =>
          have : v.setup.requestClass v.cfg = .setCurOther v.setup.sel v.setup.length := by
            simp [Setup.requestClass, he, hq, hs, hi]
          rw [this]
          simpa [exec, execSetCurOther, State.eligible, State.isCur, he, hq, ← hi, hreq] using
            hp fun s => s.dispatch .handleCurrent
        | true =>
          have : v.setup.requestClass v.cfg = .getCurOther v.setup.sel v.setup.length := by
            simp [Setup.requestClass, he, hq, hs, hi]
          rw [this]
          simpa [exec, execGetCurOther, State.eligible, State.isCur, he, hq, ← hi, hreq] using
            hp fun s => s.dispatch .handleCurrent
      | true =>
        rw [(selPD_iff _ _).1 hs] at hreq
        cases hi : v.setup.isIn with
        | false =>
          have : v.setup.requestClass v.cfg = .setCurPd v.setup.length := by
            simp [Setup.requestClass, he, hq, hs, hi]
          rw [this]
          simpa [exec, execSetCurPd, State.eligible, State.isCur, he, hq, ← hi, hreq] using
            hp fun s => s.dispatch .handleCurrent
        | true =>
          have : v.setup.requestClass v.cfg = .getCurPd v.setup.length := by
            simp [Setup.requestClass, he, hq, hs, hi]
          rw [this]
          simpa [exec, execGetCurPd, State.eligible, State.isCur, he, hq, ← hi, hreq] using
            hp fun s => s.dispatch .handleCurrent

/-- The class of a request that arrives is dispatched as the tick operation of the same cycle will
dispatch it (R83, R142 to R144; log 7). -/
theorem arrivals_next (s v : State) (hc : v.cfg = s.cfg) (hh : v.h = s.h) (hi : v.inp = s.inp) :
    runOps (arrivals s) v = .next { v with h := if s.setupArrives then handlerWrites s else s.h } := by
  have hset : v.setup = s.setup := by rw [State.setup, State.setup, hi]
  unfold arrivals
  split
  · rename_i ha
    simp only [State.setupArrives, Bool.and_eq_true, beq_iff_eq] at ha
    have hx := requestClass_exec (v := v) (by rw [hh]; exact ha.1) (by rw [hi]; exact ha.2)
    have he : v.eligible = s.eligible := by rw [State.eligible, State.eligible, hset]
    have hq : v.isCur = s.isCur := by rw [State.isCur, State.isCur, hset, hc]
    rw [hset, hc, he, hq] at hx
    rw [runOps_cons_next hx, runOps_nil]
    simp only [handlerWrites, ha.1, ha.2, hset, Bool.true_and, State.mapH, State.dispatch_eq, State.writeTrig_eq, hh]
    split <;> rfl
  · simp [← hh]

/-! ### The whole cycle -/

/-- The next state of an admitted cycle. -/
def nextState (s : State) : State where
  cfg := s.cfg
  t := txWrites s
  h := handlerWrites s
  inp := s.stim.headD s.inp.hold
  stim := s.stim.tail
  out := cycleOutputs s
  cycle := s.cycle + 1
  draws := s.draws + 1

theorem handlerWrites_arrived {s v : State} (hc : v.cfg = s.cfg) (hi : v.inp = s.inp)
    (hh : v.h = if s.setupArrives then handlerWrites s else s.h) (ho : v.out = s.idleOutputs) :
    applyRows (allRows s.handlerKey) v = { v with h := handlerWrites s, out := cycleOutputs s } := by
  cases ha : s.setupArrives with
  | false => exact handler_rows_effect s v hc (by simpa [ha] using hh) hi ho
  | true =>
    have hst : s.h.st = .idle := by simp [State.setupArrives] at ha; exact ha.1
    have hset : v.setup = s.setup := by rw [State.setup, State.setup, hi]
    rw [applyRows_idle _ _ (by simp [State.handlerKey, hst]) (by simp [State.handlerKey, hst])]
    simp only [ha, if_true] at hh
    simp only [State.mapH, hh, handlerWrites, cycleOutputs, hst, hset, State.handlerKey, ← ho]
    split <;> rfl

/-- An admitted cycle answers its next state. -/
theorem runCycle_admitted {s : State} (h : s.refusal = none) : runCycle s = .next (nextState s) := by
  have ht := ((s.refusal_none_iff).1 h).1
  have hrun : runOps s.operations s.beginCycle =
      .next { s.beginCycle with t := txWrites s, h := handlerWrites s, out := cycleOutputs s } := by
    rw [operations_eq, transmitter_ops_next ht]
    rw [runOps_append_next (arrivals_next s (s.beginCycle.mapT fun _ => txWrites s) rfl rfl rfl)]
    rw [handler_ops_next]
    exact congrArg Host.Outcome.next (handlerWrites_arrived (s := s) rfl rfl rfl rfl)
  unfold runCycle
  rw [hrun]
  rfl

/-- A step is refused by its checks, or answers the next state of an admitted cycle. -/
theorem step_eq (s : State) :
    step s = match s.refusal with
      | some r => .refused r
      | none => .next (nextState s) := by
  unfold step
  cases h : s.refusal with
  | some r => rfl
  | none => exact runCycle_admitted h

/-- Everything a step that answers a next state can do. -/
theorem step_next_iff (s u : State) : step s = .next u ↔ s.refusal = none ∧ u = nextState s := by
  rw [step_eq]
  cases s.refusal <;> simp [eq_comm]

end Sys2Proof.Machine
end

