-- ==== Sys2Proof/Laws/Firing.lean ====
section
/-! SUPPORT. Which operations a cycle has: for each kind of operation, the condition on the state and the
inputs under which it is among `State.operations`. -/

namespace Sys2Proof.Machine

/-! ### The three kinds of operations -/

/-- The seven operations of T of which a cycle has exactly one. -/
def isTransmitterOp : Instr → Bool
  | .txIdleHold | .txStart | .txCount | .txToggleInactive | .txWrap | .txAdvance | .txAdvanceFlip => true
  | _ => false

/-- The operations of H's table. -/
def isHandlerOp : Instr → Bool
  | .idleIgnore | .idleDispatchCur | .idleDispatchUnhandled | .getDrive | .getDataMatch | .getDataMismatch
  | .getStatus | .setDrive | .setArm | .setMismatch | .setCommit | .setDiscard | .setDataAck | .setStatusZlp
  | .setDone | .unhandledStallData | .unhandledStallStatus | .hold => true
  | _ => false

/-- The request classes. -/
def isRequestClass : Instr → Bool
  | .getCurPd _ | .setCurPd _ | .getCurOther _ _ | .setCurOther _ _ | .classIfOther _ _ _ _ | .notEligible _ => true
  | _ => false

theorem transmitter_kind (k : TxKey) : isTransmitterOp k.operation = true := by
  obtain ⟨s, z, e, a, w, b⟩ := k
  revert s z e a w b
  decide

theorem request_kind (cfg : Config) (f : Setup) : isRequestClass (f.requestClass cfg) = true := by
  unfold Setup.requestClass
  split_ifs <;> rfl

theorem mem_handler_iff (k : HandlerKey) (i : Instr) : i ∈ k.operations ↔ (true, i) ∈ allRows k := by
  simp only [HandlerKey.operations, allRows, firing, List.mem_map, List.mem_filter]
  constructor
  · rintro ⟨⟨a, b⟩, ⟨h, ha⟩, rfl⟩
    simp only at ha
    exact ha ▸ h
  · exact fun h => ⟨_, ⟨h, rfl⟩, rfl⟩

theorem handler_kind {k : HandlerKey} {i : Instr} (h : i ∈ k.operations) : isHandlerOp i = true := by
  rw [mem_handler_iff] at h
  simp only [allRows, HandlerKey.restRows, HandlerKey.actingRows, HandlerKey.discardRows, List.cons_append,
    List.nil_append, List.mem_cons, List.not_mem_nil, or_false, Prod.mk.injEq] at h
  rcases h with h | h | h | h | h | h | h | h | h | h | h | h | h | h | h | h | h | h <;> (rw [h.2]; rfl)

/-! ### Membership in the operations of a cycle -/

theorem mem_operations (s : State) (i : Instr) :
    i ∈ s.operations ↔
      i = .npUpdate ∨ i = s.txKey.operation ∨ (s.setupArrives = true ∧ i = s.setup.requestClass s.cfg) ∨
        i ∈ s.handlerKey.operations := by
  rw [operations_eq]
  unfold arrivals
  split <;> rename_i h <;> simp [h]

/-- An operation of T is the one that T's key selects. -/
theorem mem_operations_transmitter {i : Instr} (hi : isTransmitterOp i = true) (s : State) :
    i ∈ s.operations ↔ s.txKey.operation = i := by
  rw [mem_operations]
  constructor
  · rintro (rfl | h | ⟨-, h⟩ | h)
    · cases hi
    · exact h.symm
    · have := request_kind s.cfg s.setup
      rw [← h] at this
      cases i <;> simp_all [isTransmitterOp, isRequestClass]
    · have := handler_kind h
      cases i <;> simp_all [isTransmitterOp, isHandlerOp]
  · exact fun h => .inr (.inl h.symm)

/-- A class is that of the SETUP presented to an IDLE handler. -/
theorem mem_operations_request {i : Instr} (hi : isRequestClass i = true) (s : State) :
    i ∈ s.operations ↔ s.h.st = .idle ∧ s.inp.setupRcv = true ∧ s.setup.requestClass s.cfg = i := by
  have ha : s.setupArrives = true ↔ s.h.st = .idle ∧ s.inp.setupRcv = true := by simp [State.setupArrives]
  rw [mem_operations, ha]
  constructor
  · rintro (rfl | h | ⟨h, h'⟩ | h)
    · cases hi
    · have := transmitter_kind s.txKey
      rw [← h] at this
      cases i <;> simp_all [isTransmitterOp, isRequestClass]
    · exact ⟨h.1, h.2, h'.symm⟩
    · have := handler_kind h
      cases i <;> simp_all [isRequestClass, isHandlerOp]
  · exact fun ⟨h, h', h''⟩ => .inr (.inr (.inl ⟨⟨h, h'⟩, h''.symm⟩))

/-- An operation of H is one whose row's condition holds. -/
theorem mem_operations_handler {i : Instr} (hi : isHandlerOp i = true) (s : State) :
    i ∈ s.operations ↔ (true, i) ∈ allRows s.handlerKey := by
  rw [mem_operations, ← mem_handler_iff]
  constructor
  · rintro (rfl | h | ⟨-, h⟩ | h)
    · cases hi
    · have := transmitter_kind s.txKey
      rw [← h] at this
      cases i <;> simp_all [isTransmitterOp, isHandlerOp]
    · have := request_kind s.cfg s.setup
      rw [← h] at this
      cases i <;> simp_all [isRequestClass, isHandlerOp]
    · exact h
  · exact fun h => .inr (.inr (.inr h))

/-! ### The conditions of the keys, on the state -/

theorem running_iff (s : State) : s.running = true ↔ s.t.st = .run := by simp [State.running]

theorem not_running_iff (s : State) : s.running = false ↔ s.t.st = .idle := by
  cases h : s.t.st <;> simp [State.running, h]

theorem key_idle_iff (s : State) : s.handlerKey.idle = true ↔ s.h.st = .idle := by
  cases h : s.h.st <;> simp [State.handlerKey, HandlerKey.idle, h]

theorem key_current_iff (s : State) : s.handlerKey.current = true ↔ s.h.st = .handleCurrent := by
  cases h : s.h.st <;> simp [State.handlerKey, HandlerKey.current, h]

theorem key_unhandled_iff (s : State) : s.handlerKey.unhandled = true ↔ s.h.st = .unhandled := by
  cases h : s.h.st <;> simp [State.handlerKey, HandlerKey.unhandled, h]

/-- The condition of each row of H's table (R88, R159). -/
theorem mem_allRows (k : HandlerKey) (i : Instr) :
    (true, i) ∈ allRows k ↔ match i with
      | .idleIgnore => (k.idle && !k.v) = true
      | .idleDispatchCur => (k.idle && k.v && k.c) = true
      | .idleDispatchUnhandled => (k.idle && k.v && !k.c) = true
      | .getDataMatch => (k.current && k.i && k.d && k.m) = true
      | .getDataMismatch => (k.current && k.i && k.d && !k.m) = true
      | .getStatus => (k.current && k.i && k.q) = true
      | .setArm => (k.current && !k.i && !k.t && k.m) = true
      | .setMismatch => (k.current && !k.i && !k.t && !k.m) = true
      | .setCommit => (k.current && !k.i && k.p && k.n) = true
      | .setDataAck => (k.current && !k.i && k.y) = true
      | .setStatusZlp => (k.current && !k.i && k.q) = true
      | .setDone => (k.current && !k.i && k.k) = true
      | .unhandledStallData => (k.unhandled && k.d) = true
      | .unhandledStallStatus => (k.unhandled && k.q) = true
      | .getDrive => (k.current && k.i) = true
      | .setDrive => (k.current && !k.i) = true
      | .setDiscard => (k.current && !k.i && !k.p && k.n) = true
      | .hold => ((k.current || k.unhandled) && !k.actingRows.any (·.1)) = true
      | _ => False := by
  cases i <;>
    simp [allRows, HandlerKey.restRows, HandlerKey.actingRows, HandlerKey.discardRows, @eq_comm _ true]

/-- The condition of each row of T's table (R87). -/
theorem operation_iff (k : TxKey) (i : Instr) :
    k.operation = i ↔ match i with
      | .txIdleHold => k.s = false ∧ k.z = true
      | .txStart => k.s = false ∧ k.z = false
      | .txCount => k.s = true ∧ k.e = false
      | .txToggleInactive => k.s = true ∧ k.e = true ∧ k.a = false
      | .txWrap => k.s = true ∧ k.e = true ∧ k.a = true ∧ k.w = true
      | .txAdvance => k.s = true ∧ k.e = true ∧ k.a = true ∧ k.w = false ∧ k.b = false
      | .txAdvanceFlip => k.s = true ∧ k.e = true ∧ k.a = true ∧ k.w = false ∧ k.b = true
      | _ => False := by
  obtain ⟨s, z, e, a, w, b⟩ := k
  cases s <;> cases z <;> cases e <;> cases a <;> cases w <;> cases b <;> cases i <;> simp [TxKey.operation]

/-! ### The outputs of T -/

/-- H's operations leave T's four output levels alone. -/
theorem cycleOutputs_transmitter (s : State) :
    (cycleOutputs s).bclk = s.bclkLevel ∧ (cycleOutputs s).ws = s.wsLevel ∧ (cycleOutputs s).sd = s.sdLevel ∧
      (cycleOutputs s).needSample = s.needSampleLevel := by
  unfold cycleOutputs
  split <;> (try split) <;> exact ⟨rfl, rfl, rfl, rfl⟩

/-- After every step `T.np` is the pending channel of the cycle (R101). -/
theorem txWrites_np (s : State) : (txWrites s).np = s.t.nxt := by
  unfold txWrites
  split_ifs <;> rfl

end Sys2Proof.Machine
end

