-- ==== Sys2Proof/Laws/PerInstr.lean ====
section
/-! SUPPORT. A statement for every operation of the opcode table, one lemma for each constructor: the
word that the encoder writes for a well-formed operation matches the operation's own row of
spec/opcode_table.json (R80). -/

namespace Sys2Proof.Laws.EncodingFits

open Sys2Proof

/-- With the table's parameters, the encoded key matches the row's mask and pattern. -/
def Statement (i : Instr) : Prop :=
  i.wf Config.vectors = true → ∀ r, i.row = some r → (encode Config.vectors i).fits r = true

/-- A mask over the upper part of a concatenation looks at the upper part alone. -/
theorem append_and {v w : Nat} (hi : BitVec v) (lo : BitVec w) (m : Nat) :
    (hi ++ lo).toNat &&& (m <<< w) = (hi.toNat &&& m) <<< w := by
  apply Nat.eq_of_testBit_eq
  intro i
  rw [BitVec.toNat_append]
  simp only [Nat.testBit_and, Nat.testBit_or, Nat.testBit_shiftLeft]
  by_cases h : w ≤ i
  · have hlo : lo.toNat.testBit i = false := Nat.testBit_lt_two_pow (lt_of_lt_of_le lo.isLt (Nat.pow_le_pow_right (by decide) h))
    simp [h, hlo]
  · simp [h]

/-- A mask over the fields above the four selector bytes. -/
theorem key_and_above_selector (f : Setup) (m : Nat) :
    f.key.toNat &&& (m <<< 8 <<< 8 <<< 8 <<< 8) =
      ((BitVec.ofBool f.isIn ++ f.typ.code ++ f.recipient.code ++ f.request).toNat &&& m) <<< 8 <<< 8 <<< 8 <<< 8 := by
  unfold Setup.key
  rw [append_and, append_and, append_and, append_and]

theorem getCurPd (len : Length) : Statement (.getCurPd len) := by
  rintro - r ⟨rfl⟩
  have h : ((Setup.classRequest true 0x01 ⟨0x02, 0x00, 0x0B, 0x00⟩ 0).key.toNat &&& 0xFFFFFFFFFFFF) =
      0xA10102000B00 := by decide
  exact beq_iff_eq.2 h

theorem setCurPd (len : Length) : Statement (.setCurPd len) := by
  rintro - r ⟨rfl⟩
  have h : ((Setup.classRequest false 0x01 ⟨0x02, 0x00, 0x0B, 0x00⟩ 0).key.toNat &&& 0xFFFFFFFFFFFF) =
      0x210102000B00 := by decide
  exact beq_iff_eq.2 h

theorem getCurOther (sel : Selector) (len : Length) : Statement (.getCurOther sel len) := by
  rintro - r ⟨rfl⟩
  have h := key_and_above_selector (Setup.classRequest true 0x01 sel len) 0xFFFF
  have u : (BitVec.ofBool true ++ SetupType.classSpecific.code ++ Recipient.interface.code ++ (0x01 : Byte)).toNat &&& 0xFFFF = 0xA101 := by decide
  simp only [Setup.classRequest, u] at h
  exact beq_iff_eq.2 h

theorem setCurOther (sel : Selector) (len : Length) : Statement (.setCurOther sel len) := by
  rintro - r ⟨rfl⟩
  have h := key_and_above_selector (Setup.classRequest false 0x01 sel len) 0xFFFF
  have u : (BitVec.ofBool false ++ SetupType.classSpecific.code ++ Recipient.interface.code ++ (0x01 : Byte)).toNat &&& 0xFFFF = 0x2101 := by decide
  simp only [Setup.classRequest, u] at h
  exact beq_iff_eq.2 h

theorem classIfOther (isIn : Bool) (request : Byte) (sel : Selector) (len : Length) : Statement (.classIfOther isIn request sel len) := by
  rintro - r ⟨rfl⟩
  have h := key_and_above_selector (Setup.classRequest isIn request sel len) (0x7F <<< 8)
  have u : (BitVec.ofBool isIn ++ SetupType.classSpecific.code ++ Recipient.interface.code).toNat &&& 0x7F = 0x21 := by
    cases isIn <;> decide
  simp only [Setup.classRequest, append_and, u] at h
  exact beq_iff_eq.2 h

theorem notEligible (setup : Setup) : Statement (.notEligible setup) := by
  rintro - r ⟨rfl⟩
  exact beq_iff_eq.2 (Nat.and_zero _)

theorem npUpdate : Statement .npUpdate := by
  rintro - r ⟨rfl⟩
  rfl

theorem txIdleHold : Statement .txIdleHold := by
  rintro - r ⟨rfl⟩
  rfl

theorem txStart : Statement .txStart := by
  rintro - r ⟨rfl⟩
  rfl

theorem txCount : Statement .txCount := by
  rintro - r ⟨rfl⟩
  rfl

theorem txToggleInactive : Statement .txToggleInactive := by
  rintro - r ⟨rfl⟩
  rfl

theorem txWrap : Statement .txWrap := by
  rintro - r ⟨rfl⟩
  rfl

theorem txAdvance : Statement .txAdvance := by
  rintro - r ⟨rfl⟩
  rfl

theorem txAdvanceFlip : Statement .txAdvanceFlip := by
  rintro - r ⟨rfl⟩
  rfl

theorem idleIgnore : Statement .idleIgnore := by
  rintro - r ⟨rfl⟩
  rfl

theorem idleDispatchCur : Statement .idleDispatchCur := by
  rintro - r ⟨rfl⟩
  rfl

theorem idleDispatchUnhandled : Statement .idleDispatchUnhandled := by
  rintro - r ⟨rfl⟩
  rfl

theorem getDrive : Statement .getDrive := by
  rintro - r ⟨rfl⟩
  rfl

theorem getDataMatch : Statement .getDataMatch := by
  rintro - r ⟨rfl⟩
  rfl

theorem getDataMismatch : Statement .getDataMismatch := by
  rintro - r ⟨rfl⟩
  rfl

theorem getStatus : Statement .getStatus := by
  rintro - r ⟨rfl⟩
  rfl

theorem setDrive : Statement .setDrive := by
  rintro - r ⟨rfl⟩
  rfl

theorem setArm : Statement .setArm := by
  rintro - r ⟨rfl⟩
  rfl

theorem setMismatch : Statement .setMismatch := by
  rintro - r ⟨rfl⟩
  rfl

theorem setCommit : Statement .setCommit := by
  rintro - r ⟨rfl⟩
  rfl

theorem setDiscard : Statement .setDiscard := by
  rintro - r ⟨rfl⟩
  rfl

theorem setDataAck : Statement .setDataAck := by
  rintro - r ⟨rfl⟩
  rfl

theorem setStatusZlp : Statement .setStatusZlp := by
  rintro - r ⟨rfl⟩
  rfl

theorem setDone : Statement .setDone := by
  rintro - r ⟨rfl⟩
  rfl

theorem unhandledStallData : Statement .unhandledStallData := by
  rintro - r ⟨rfl⟩
  rfl

theorem unhandledStallStatus : Statement .unhandledStallStatus := by
  rintro - r ⟨rfl⟩
  rfl

theorem hold : Statement .hold := by
  rintro - r h
  cases h

end Sys2Proof.Laws.EncodingFits
end

