-- ==== Sys2Proof/Laws/Run.lean ====
section
/-! SUPPORT. Runs of several ticks: how they come apart, and what a held configuration keeps. -/

namespace Sys2Proof.Machine

@[simp] theorem runTicks_zero (s : State) : runTicks 0 s = .next s := rfl

/-- A run of `n + 1` ticks is a step and a run of `n` ticks. -/
theorem runTicks_succ_next_iff (n : Nat) (s v : State) :
    runTicks (n + 1) s = .next v ↔ ∃ u, step s = .next u ∧ runTicks n u = .next v := by
  cases h : step s <;> simp [runTicks, h]

/-- A run of `m + n` ticks is a run of `m` ticks and one of `n`. -/
theorem runTicks_add_next_iff (m n : Nat) (s v : State) :
    runTicks (m + n) s = .next v ↔ ∃ u, runTicks m s = .next u ∧ runTicks n u = .next v := by
  induction m generalizing s with
  | zero => simp
  | succ m ih =>
    rw [Nat.add_right_comm]
    simp only [runTicks_succ_next_iff, ih]
    constructor
    · rintro ⟨u, hu, w, hw, hv⟩
      exact ⟨w, ⟨u, hu, hw⟩, hv⟩
    · rintro ⟨w, ⟨u, hu, hw⟩, hv⟩
      exact ⟨u, hu, w, hw, hv⟩

/-- The last tick of a run. -/
theorem runTicks_snoc_next_iff (n : Nat) (s v : State) :
    runTicks (n + 1) s = .next v ↔ ∃ u, runTicks n s = .next u ∧ step u = .next v := by
  rw [runTicks_add_next_iff]
  simp [runTicks_succ_next_iff]

/-- A step under a held configuration: the next cycle has the same divider and width, and they are held. -/
theorem heldConfig_step {s u : State} (hs : s.HeldConfig) (h : step s = .next u) :
    u.HeldConfig ∧ u.divider = s.divider ∧ u.width = s.width ∧ u.cfg = s.cfg := by
  obtain ⟨-, rfl⟩ := (step_next_iff s u).1 h
  have hin : (s.stim.headD s.inp.hold).divider = s.inp.divider ∧ (s.stim.headD s.inp.hold).width = s.inp.width := by
    cases hst : s.stim with
    | nil => exact ⟨rfl, rfl⟩
    | cons i l => exact hs i (by simp [hst])
  refine ⟨fun i hi => ?_, ?_, hin.2, rfl⟩
  · have := hs i (List.mem_of_mem_tail hi)
    exact ⟨this.1.trans hin.1.symm, this.2.trans hin.2.symm⟩
  · simp only [State.divider, State.onDivBits, nextState, hin.1]

/-- A run under a held configuration. -/
theorem heldConfig_runTicks {s u : State} (n : Nat) (hs : s.HeldConfig) (h : runTicks n s = .next u) :
    u.HeldConfig ∧ u.divider = s.divider ∧ u.width = s.width ∧ u.cfg = s.cfg := by
  induction n generalizing u with
  | zero =>
    cases h
    exact ⟨hs, rfl, rfl, rfl⟩
  | succ n ih =>
    obtain ⟨w, hw, hu⟩ := (runTicks_snoc_next_iff n s u).1 h
    obtain ⟨h1, h2, h3, h4⟩ := ih hw
    obtain ⟨k1, k2, k3, k4⟩ := heldConfig_step h1 hu
    exact ⟨k1, k2.trans h2, k3.trans h3, k4.trans h4⟩

end Sys2Proof.Machine
end

