-- ==== Sys2Proof/Tests/Slice0.lean ====
section
/-! SUPPORT. Tests: the terms that WellFormed refuses, the words of spec/30_encoding.md decoded, single
steps from spec/95_test_vectors.md (the vector's name stands at each), and, for each statement of
Certificates/Slice0/Obligations.lean that has hypotheses, a state that meets them. -/

namespace Sys2Proof.Tests

open Sys2Proof Sys2Proof.Machine

/-! ### Helpers -/

/-- The next state that an outcome answers. -/
def next? (o : Host.Outcome State Fault Refusal) : Option State :=
  match o with
  | .next u => some u
  | .fault _ => none
  | .refused _ => none

/-- The code of a refusal that an outcome answers. -/
def refusal? (o : Host.Outcome State Fault Refusal) : Option Refusal :=
  match o with
  | .next _ => none
  | .fault _ => none
  | .refused r => some r

theorem next_of {o : Host.Outcome State Fault Refusal} (h : (next? o).isSome = true) : ∃ u, o = .next u := by
  cases o with
  | next u => exact ⟨u, rfl⟩
  | fault r => cases r
  | refused r => simp [next?] at h

theorem admitted {s : State} (h : s.refusal = none) : step s = .next (nextState s) := (step_next_iff _ _).2 ⟨h, rfl⟩

/-- T in IDLE or RUN, with the channels and counters named; H in IDLE. -/
def txAt (st : TxState) (cnt : Nat) (clk : Bool) (bp lb : Width) (cur nxt np : Channel) (d : Nat) (w : Width) : State :=
  { State.reset with
    t := { st := st, cnt := cnt, clk := clk, bp := bp, lb := lb, cur := cur, nxt := nxt, np := np, gDiv := d, gWid := w }
    inp := { Inputs.quiet with divider := d, width := w, sampleLeft := 0b101, sampleRight := 0b110 }
    cycle := 5 }

/-- T in IDLE. -/
def txIdle (d : Nat) (w : Width) : State := txAt .idle 0 true 0 0 .left .right .right d w

/-- The power-domain control and another selector (program 4.4). -/
def pdSel : Selector := ⟨0x02, 0x00, 0x0B, 0x00⟩
def otherSel : Selector := ⟨0x05, 0x00, 0x0B, 0x00⟩

/-- H in the middle of a transfer (its SETUP held), with the pulses that `pulses` adds. -/
def serving (st : HandlerState) (isIn : Bool) (sel : Selector) (len : Length) (trig : Bool) (pulses : Inputs → Inputs) :
    State :=
  let f := Setup.classRequest isIn (if st = .unhandled then 0x02 else 0x01) sel len
  { State.reset with
    h := { st := st, trig := trig, pds := 0x3C, gSetup := f }
    inp := pulses { Inputs.quiet with setup := f, rxPayload := 0xFF }
    cycle := 5 }

/-- H in IDLE with a SETUP presented. -/
def presented (f : Setup) : State :=
  { State.reset with inp := { Inputs.quiet with setup := f, setupRcv := true }, h := { State.reset.h with trig := true } }

def noPulse (i : Inputs) : Inputs := i
def dataPulse (i : Inputs) : Inputs := { i with dataReq := true }
def statusPulse (i : Inputs) : Inputs := { i with statusReq := true }
def donePulse (i : Inputs) : Inputs := { i with rxDone := true }
def readyPulse (i : Inputs) : Inputs := { i with rxReady := true }
def ackPulse (i : Inputs) : Inputs := { i with ackIn := true }

/-! ### WellFormed refuses (R83: an earlier row has these) -/

theorem test_wf_getCurOther : (Instr.getCurOther pdSel 1).wf Config.vectors = false ∧
    (Instr.getCurOther otherSel 1).wf Config.vectors = true := by decide
theorem test_wf_setCurOther : (Instr.setCurOther pdSel 0).wf Config.vectors = false ∧
    (Instr.setCurOther otherSel 0).wf Config.vectors = true := by decide
theorem test_wf_classIfOther : (Instr.classIfOther true 0x01 pdSel 1).wf Config.vectors = false ∧
    (Instr.classIfOther true 0x02 pdSel 1).wf Config.vectors = true := by decide
theorem test_wf_notEligible :
    (Instr.notEligible (Setup.classRequest true 0x01 pdSel 1)).wf Config.vectors = false ∧
      (Instr.notEligible ⟨true, .vendor, .interface, 0x01, pdSel, 1⟩).wf Config.vectors = true := by decide

/-! ### Words written out from the encodings -/

/-- R82, R83, the six rows and the vectors of spec/95_test_vectors.md section 3.1: byte by byte
direction/type/recipient, request, valueHigh, valueLow, indexHigh, indexLow. -/
theorem test_decode_requests :
    decodeTableWord 48 0xA10102000B00 = some (.getCurPd 0) ∧
    decodeTableWord 48 0x210102000B00 = some (.setCurPd 0) ∧
    decodeTableWord 48 0xA10105000B00 = some (.getCurOther otherSel 0) ∧
    decodeTableWord 48 0x210105000B00 = some (.setCurOther otherSel 0) ∧
    decodeTableWord 48 0xA10202000B00 = some (.classIfOther true 0x02 pdSel 0) ∧
    decodeTableWord 48 0xA00102000B00 = some (.notEligible ⟨true, .classSpecific, .device, 0x01, pdSel, 0⟩) := by decide

/-- R84: the length is an operand beside the key; R81: the reserved recipient codes are kept. -/
theorem test_decode_operands :
    decode Config.vectors (.setup 0xA10102000B00 2) = .ok [.getCurPd 2] ∧
      decode Config.vectors (.setup 0x3F0102000B00 7) =
        .ok [.notEligible ⟨false, .classSpecific, .reserved 27, 0x01, pdSel, 7⟩] := ⟨rfl, rfl⟩

/-- R87: SZEAWB, with NP_UPDATE beside every transmitter operation. -/
theorem test_decode_transmitter :
    decode Config.vectors (.tx 0b000000) = .ok [.npUpdate, .txStart] ∧
    decodeTableWord 6 0b010111 = some .txIdleHold ∧
    decodeTableWord 6 0b001111 = some .txStart ∧
    decodeTableWord 6 0b110111 = some .txCount ∧
    decodeTableWord 6 0b101011 = some .txToggleInactive ∧
    decodeTableWord 6 0b101111 = some .txWrap ∧
    decodeTableWord 6 0b111100 = some .txAdvance ∧
    decodeTableWord 6 0b101101 = some .txAdvanceFlip := by
  refine ⟨rfl, ?_⟩; decide

/-- R88: s1 s0 V C I D Q Y K T M P N; IDLE, UNHANDLED and HOLD. -/
theorem test_decode_handler_idle_unhandled :
    decodeTableWord 13 0b0001111111111 = some .idleIgnore ∧
    decodeTableWord 13 0b0011000000000 = some .idleDispatchCur ∧
    decodeTableWord 13 0b0010111111111 = some .idleDispatchUnhandled ∧
    decodeTableWord 13 0b1000010000000 = some .unhandledStallData ∧
    decodeTableWord 13 0b1000001000000 = some .unhandledStallStatus ∧
    decode Config.vectors (.handler 0b1000010000000) = .ok [.unhandledStallData] ∧
    decode Config.vectors (.handler 0b1000000110001) = .ok [.hold] ∧
    decode Config.vectors (.handler 0b0101100000110) = .ok [.hold, .getDrive] := by
  refine ⟨by decide, by decide, by decide, by decide, by decide, rfl, rfl, rfl⟩

/-- R88: HANDLE_CURRENT, GET. -/
theorem test_decode_handler_get :
    decodeTableWord 13 0b0101100000000 = some .getDrive ∧
    decode Config.vectors (.handler 0b0101110000110) = .ok [.getDrive, .getDataMatch] ∧
    decode Config.vectors (.handler 0b0101110000010) = .ok [.getDrive, .getDataMismatch] ∧
    decode Config.vectors (.handler 0b0101101000110) = .ok [.getDrive, .getStatus] := by
  refine ⟨by decide, rfl, rfl, rfl⟩

/-- R88: HANDLE_CURRENT, SET. -/
theorem test_decode_handler_set :
    decodeTableWord 13 0b0101000001110 = some .setDrive ∧
    decode Config.vectors (.handler 0b0101000000110) = .ok [.setDrive, .setArm] ∧
    decode Config.vectors (.handler 0b0101000000010) = .ok [.setDrive, .setMismatch] ∧
    decode Config.vectors (.handler 0b0101000001111) = .ok [.setDrive, .setCommit] ∧
    decode Config.vectors (.handler 0b0101000001101) = .ok [.hold, .setDrive, .setDiscard] ∧
    decode Config.vectors (.handler 0b0101000101110) = .ok [.setDrive, .setDataAck] ∧
    decode Config.vectors (.handler 0b0101001001110) = .ok [.setDrive, .setStatusZlp] ∧
    decode Config.vectors (.handler 0b0101000011110) = .ok [.setDrive, .setDone] := by
  refine ⟨by decide, rfl, rfl, rfl, rfl, rfl, rfl, rfl⟩

/-- R80, R89: no key of another width, no stray bit, no state code 11. -/
theorem test_decode_rejects :
    decodeTableWord 32 0 = none ∧ decodeTableWord 8 0b1000000 = none ∧
    encodedOfTable 32 0 = .error (.unknownKeyWidth 32) ∧
    decode Config.vectors (.handler 0b1100000000000) = .error .unreachableHandlerState := by
  refine ⟨by decide, by decide, rfl, rfl⟩

/-! ### Single steps: the transmitter (spec/95_test_vectors.md section 2.5) -/

/-- T-S1, and T-S13 beside it. -/
theorem test_txIdleHold : (next? (step (txIdle 3 0))).map (fun u => (u.t.st, u.t.cur, u.t.nxt, u.t.clk, u.t.np)) =
    some (.idle, .left, .right, true, .right) := by decide
/-- T-S3. -/
theorem test_txStart : (next? (step (txAt .idle 9 false 3 3 .left .right .left 7 23))).map
    (fun u => (u.t.st, u.t.cnt, u.t.bp.toNat, u.t.lb.toNat, u.t.clk, u.t.np)) = some (.run, 7, 23, 22, false, .right) := by
  decide
/-- T-S4: the smallest width. -/
theorem test_txStart_smallest : (next? (step (txIdle 1 1))).map (fun u => (u.t.cnt, u.t.bp.toNat, u.t.lb.toNat)) =
    some (1, 1, 0) := by decide
/-- T-S6: up to the divider, no wraparound. -/
theorem test_txCount : (next? (step (txAt .run 4 false 2 1 .right .right .right 5 2))).map (·.t.cnt) = some 5 := by decide
/-- T-S7. -/
theorem test_txToggleInactive : (next? (step (txAt .run 5 false 2 1 .right .left .left 5 2))).map
    (fun u => (u.t.cnt, u.t.clk, u.t.bp.toNat, u.t.cur, u.t.nxt)) = some (0, true, 2, .right, .left) := by decide
/-- T-S8: RISING, a toggle to 0 is the inactive one. -/
theorem test_txToggleInactive_rising :
    (next? (step { txAt .run 5 true 2 1 .right .left .left 5 2 with
      cfg := { Config.vectors with activeEdge := .rising } })).map (fun u => (u.t.cnt, u.t.clk, u.t.cur)) =
      some (0, false, .right) := by decide
/-- T-S9. -/
theorem test_txWrap : (next? (step (txAt .run 5 true 23 22 .right .left .left 5 23))).map
    (fun u => (u.t.cnt, u.t.clk, u.t.bp.toNat, u.t.cur, u.t.nxt)) = some (0, false, 0, .left, .left) := by decide
/-- T-S10. -/
theorem test_txAdvance : (next? (step (txAt .run 5 true 5 22 .right .right .right 5 23))).map
    (fun u => (u.t.bp.toNat, u.t.cur, u.t.nxt, u.t.clk)) = some (6, .right, .right, false) := by decide
/-- T-S11: `ws` and `needSample` of the next cycle. -/
theorem test_txAdvanceFlip : (next? (step (txAt .run 5 true 22 22 .right .right .right 5 23))).map
    (fun u => (u.t.bp.toNat, u.t.cur, u.t.nxt, u.wsLevel, u.needSampleLevel)) = some (23, .right, .left, false, true) := by
  decide
/-- T-S12: width 1. -/
theorem test_txAdvanceFlip_width_one : (next? (step (txAt .run 5 true 0 0 .left .left .left 5 1))).map
    (fun u => (u.t.bp.toNat, u.t.cur, u.t.nxt)) = some (1, .left, .right) := by decide
/-- T-S13: the copy is of the pending channel before this tick's flip. -/
theorem test_npUpdate : (next? (step (txAt .run 5 true 22 22 .right .right .left 5 23))).map (fun u => (u.t.np, u.t.nxt)) =
    some (.right, .left) := by decide

/-- T-O1: bit 23. -/
theorem test_sd_first_bit :
    (next? (step (let s := txAt .run 1 true 0 22 .right .right .right 5 23
      { s with inp := { s.inp with sampleRight := 0x800000 } }))).map (fun u => (u.out.bclk, u.out.ws, u.out.sd, u.out.needSample)) =
      some (true, true, true, false) := by decide
/-- T-O2: bit 0, with the pulse. -/
theorem test_sd_last_bit :
    (next? (step (let s := txAt .run 0 false 23 22 .right .left .right 5 23
      { s with inp := { s.inp with sampleRight := 0x000001 } }))).map (fun u => (u.out.bclk, u.out.ws, u.out.sd, u.out.needSample)) =
      some (false, false, true, true) := by decide

/-- T-R2 and T-R3. -/
theorem test_refused_transmitter :
    refusal? (step (let s := txAt .run 1 false 0 1 .right .right .right 1 2
      { s with inp := { s.inp with divider := 0 } })) = some .reconfigInRun ∧
    refusal? (step (txIdle 0 24)) = some .widthRange := by decide

/-! ### Single steps: the handler (spec/95_test_vectors.md section 3.2) -/

/-- The pulse outputs: ackOut, stallOut, zlpOut, txStart, rxStart. -/
def pulses (u : State) : List Bool :=
  [u.out.ackOut, u.out.stallOut, u.out.zlpOut, u.out.txStart, u.out.rxStart]

/-- Program 4.1, cycles 0 and 7. -/
theorem test_dispatch_cur : (next? (step (presented (Setup.classRequest true 0x01 pdSel 1)))).map
    (fun u => (u.h.st, u.h.trig, u.h.gSetup.length.toNat, pulses u)) =
      some (.handleCurrent, false, 1, [false, false, false, false, false]) := by decide
/-- Program 4.2, cycle 0. -/
theorem test_dispatch_unhandled : (next? (step (presented (Setup.classRequest true 0x02 pdSel 1)))).map
    (fun u => (u.h.st, u.h.trig)) = some (.unhandled, false) := by decide
/-- A SETUP that is not eligible (R142, R83 row 6). -/
theorem test_ignore : (next? (step (presented ⟨true, .vendor, .interface, 0x01, pdSel, 1⟩))).map
    (fun u => (u.h.st, u.h.trig)) = some (.idle, false) := by decide
/-- The classes on their own: GET_CUR_PD and SET_CUR_OTHER hold their fields. -/
theorem test_classes :
    (next? (exec (.getCurPd 1) State.reset)).map (fun u => (u.h.st, u.inp.setup.sel, u.inp.setupRcv)) =
      some (.handleCurrent, pdSel, true) ∧
    (next? (exec (.setCurOther otherSel 0) State.reset)).map (fun u => (u.h.st, u.h.gSetup.isIn, u.h.gSetup.sel)) =
      some (.handleCurrent, false, otherSel) := by decide
/-- Program 4.6: GET of the power domain, data stage; H stays. -/
theorem test_getDataMatch : (next? (step (serving .handleCurrent true pdSel 1 false dataPulse))).map
    (fun u => (u.h.st, pulses u, u.out.txPayload, u.out.txMaxLen)) =
      some (.handleCurrent, [false, false, false, true, false], 0x3C, 1) := by decide
/-- Program 4.3, cycle 2. -/
theorem test_getDataMismatch : (next? (step (serving .handleCurrent true pdSel 2 false dataPulse))).map
    (fun u => (u.h.st, pulses u, u.out.txPayload, u.out.txMaxLen)) =
      some (.idle, [false, true, false, false, false], 0x3C, 1) := by decide
/-- Program 4.4, cycle 7: another selector, status stage. -/
theorem test_getStatus : (next? (step (serving .handleCurrent true otherSel 0 false statusPulse))).map
    (fun u => (u.h.st, pulses u, u.out.txPayload, u.out.txMaxLen)) =
      some (.idle, [true, false, false, false, false], 0x00, 0) := by decide
/-- Program 4.1, cycle 1. -/
theorem test_setArm : (next? (step (serving .handleCurrent false pdSel 1 false noPulse))).map
    (fun u => (u.h.st, u.h.trig, pulses u, u.out.rxMaxLen)) =
      some (.handleCurrent, true, [false, false, false, false, true], 1) := by decide
/-- Program 4.3, cycle 6. -/
theorem test_setMismatch : (next? (step (serving .handleCurrent false pdSel 0 false noPulse))).map
    (fun u => (u.h.st, u.h.trig, pulses u, u.out.rxMaxLen)) =
      some (.idle, false, [false, true, false, false, false], 1) := by decide
/-- Program 4.7, cycle 4. -/
theorem test_setCommit : (next? (step (serving .handleCurrent false pdSel 1 true donePulse))).map
    (fun u => (u.h.st, u.h.pds, pulses u)) = some (.handleCurrent, 0xFF, [false, false, false, false, false]) := by decide
/-- Program 4.4, cycle 2. -/
theorem test_setDiscard : (next? (step (serving .handleCurrent false otherSel 0 true donePulse))).map
    (fun u => (u.h.st, u.h.pds, u.out.rxMaxLen)) = some (.handleCurrent, 0x3C, 0) := by decide
/-- Program 4.1, cycle 4. -/
theorem test_setDataAck : (next? (step (serving .handleCurrent false pdSel 1 true readyPulse))).map
    (fun u => (u.h.st, pulses u)) = some (.handleCurrent, [true, false, false, false, false]) := by decide
/-- Program 4.1, cycle 5. -/
theorem test_setStatusZlp : (next? (step (serving .handleCurrent false pdSel 1 true statusPulse))).map
    (fun u => (u.h.st, pulses u)) = some (.handleCurrent, [false, false, true, false, false]) := by decide
/-- Program 4.1, cycle 6: the flag stays until the next IDLE cycle. -/
theorem test_setDone : (next? (step (serving .handleCurrent false pdSel 1 true ackPulse))).map
    (fun u => (u.h.st, u.h.trig, pulses u)) = some (.idle, true, [false, false, false, false, false]) := by decide
/-- H24 and H25. -/
theorem test_unhandledStall :
    (next? (step (serving .unhandled true pdSel 1 false dataPulse))).map (fun u => (u.h.st, u.out.stallOut)) =
      some (.idle, true) ∧
    (next? (step (serving .unhandled true pdSel 1 false statusPulse))).map (fun u => (u.h.st, u.out.stallOut)) =
      some (.idle, true) := by decide
/-- H27 and H28. -/
theorem test_hold :
    (next? (step (serving .unhandled true pdSel 1 false fun i => readyPulse (ackPulse (donePulse i))))).map
      (fun u => (u.h.st, pulses u)) = some (.unhandled, [false, false, false, false, false]) ∧
    (next? (step (serving .handleCurrent true pdSel 1 false noPulse))).map
      (fun u => (u.h.st, pulses u, u.out.txMaxLen)) = some (.handleCurrent, [false, false, false, false, false], 1) := by
  decide
/-- H-R1, H-R3 and H-R5. -/
theorem test_refused_handler :
    refusal? (step (serving .handleCurrent true pdSel 1 false fun i => { i with setupRcv := true })) =
      some .setupMidTransfer ∧
    refusal? (step (serving .handleCurrent false pdSel 1 true fun i => { i with setup := { i.setup with length := 2 } })) =
      some .setupFieldsChanged ∧
    refusal? (exec (.notEligible zeroSetup) (serving .unhandled true pdSel 1 false noPulse)) = some .setupMidTransfer := by
  decide

/-! ### Loading a word from outside (log 14) -/

theorem test_withFetchWord :
    (next? (step (State.reset.withFetchWord 48 0xA10102000B00))).map (fun u => (u.h.st, u.h.gSetup.sel)) =
      some (.handleCurrent, pdSel) ∧
    (next? (step (State.reset.withFetchWord 8 0b101101))).map (fun u => u.t.bp.toNat) = some 2 ∧
    (next? (step (State.reset.withFetchWord 16 0b0100000000011))).map (fun u => u.h.pds) = some 0 := by decide

/-! ### Witnesses: each statement's hypotheses are met together -/

/-- A cycle of T in RUN that keeps the invariant: rows 4, 7, 11 and 12 of the trace 2.1, by the counter,
clock and position. -/
def runAt (cnt : Nat) (clk : Bool) (bp : Width) (cur nxt : Channel) : State := txAt .run cnt clk bp 1 cur nxt .right 1 2

/-- Both machines at work: T in RUN at row 7, H armed in a SET of the power domain with a byte received. -/
def busy : State :=
  let r := runAt 1 true 0 .right .right
  let h := serving .handleCurrent false pdSel 1 true donePulse
  { r with h := h.h, inp := { h.inp with divider := r.inp.divider, width := r.inp.width } }

theorem busy_inv : busy.Inv := by decide
theorem reset_inv : State.reset.Inv := by decide

theorem witness_ResetMeetsTheInvariant : Config.vectors.wf = true := by decide

theorem witness_StepKeepsTheInvariant : ∃ s u, s.Inv ∧ step s = .next u :=
  ⟨busy, _, busy_inv, admitted (by decide)⟩

/-- With the counting clause (row 4) and the advance clause (rows 7 and 11). -/
theorem witness_RunBoundsAndNoWraparound :
    (∃ s u, s.Inv ∧ s.t.st = .run ∧ step s = .next u ∧ s.t.cnt ≠ s.divider) ∧
    (∃ s u, s.Inv ∧ s.t.st = .run ∧ step s = .next u ∧ .txAdvance ∈ s.operations) ∧
    (∃ s u, s.Inv ∧ s.t.st = .run ∧ step s = .next u ∧ .txAdvanceFlip ∈ s.operations) :=
  ⟨⟨runAt 0 false 0 .right .right, _, by decide, rfl, admitted (by decide), by decide⟩,
    ⟨busy, _, busy_inv, rfl, admitted (by decide), by decide⟩,
    ⟨runAt 1 true 1 .right .right, _, by decide, rfl, admitted (by decide), by decide⟩⟩

/-- A cycle with no request and a cycle with one. -/
theorem witness_StepRunsTheDecodedOperations :
    (busy.TxAdmitted ∧ busy.HandlerAdmitted ∧ ¬(busy.h.st = .idle ∧ busy.inp.setupRcv = true)) ∧
    (let s := presented (Setup.classRequest true 0x01 pdSel 1);
      s.TxAdmitted ∧ s.HandlerAdmitted ∧ s.h.st = .idle ∧ s.inp.setupRcv = true) := by decide

/-- The four clauses; 24 is the least refused width. -/
theorem witness_RefusedCyclesNameTheBrokenDuty :
    (let s := { busy with inp := { busy.inp with divider := 2 } };
      s.t.st = .run ∧ (s.divider ≠ s.t.gDiv ∨ s.width ≠ s.t.gWid)) ∧
    (let s := txIdle 1 24;
      (s.t.st = .run → s.divider = s.t.gDiv ∧ s.width = s.t.gWid) ∧ 23 < s.width.toNat) ∧
    (let s := { busy with inp := { busy.inp with setupRcv := true } };
      s.TxAdmitted ∧ s.h.st ≠ .idle ∧ s.inp.setupRcv = true) ∧
    (let s := { busy with inp := { busy.inp with setup := { busy.inp.setup with length := 2 } } };
      s.TxAdmitted ∧ s.h.st ≠ .idle ∧ s.inp.setupRcv = false ∧ s.inp.setup ≠ s.h.gSetup) := by decide

/-- With inputs to come and with none. -/
theorem witness_StepAdvancesTheCycle :
    (∃ s u i l, step s = .next u ∧ s.stim = i :: l) ∧ (∃ s u, step s = .next u ∧ s.stim = []) :=
  ⟨⟨busy.withStimulus [busy.inp, Inputs.quiet], _, Inputs.quiet, [], admitted (by decide), rfl⟩,
    ⟨busy, _, admitted (by decide), rfl⟩⟩

theorem witness_TransmitterOutputLevels :
    ∃ s u, step s = .next u ∧ s.Inv ∧ s.t.st = .run ∧ s.cycle ≠ 0 :=
  ⟨busy, _, admitted (by decide), busy_inv, rfl, by decide⟩

theorem witness_IdleTransmitterIsSilent : ∃ s u, s.Inv ∧ s.t.st = .idle ∧ step s = .next u ∧ s.cycle ≠ 0 :=
  ⟨txIdle 0 23, _, by decide, rfl, admitted (by decide), by decide⟩

/-- Outside IDLE and in IDLE. -/
theorem witness_OperationsOfACycleCombine :
    (∃ s u, step s = .next u ∧ s.h.st ≠ .idle) ∧ (∃ s u, step s = .next u ∧ s.h.st = .idle) :=
  ⟨⟨busy, _, admitted (by decide), by decide⟩, ⟨txIdle 1 2, _, admitted (by decide), rfl⟩⟩

theorem witness_FiringOrderIsImmaterial :
    ∃ (s : State) (l : List Instr), l.Perm s.handlerKey.operations ∧ l ≠ s.handlerKey.operations :=
  ⟨busy, [.setCommit, .setDrive], by decide, by decide⟩

theorem witness_TransmitterIgnoresTheHandler :
    ∃ s s' u u', s.cfg = s'.cfg ∧ s.t = s'.t ∧ s.inp.divider = s'.inp.divider ∧ s.inp.width = s'.inp.width ∧
      step s = .next u ∧ step s' = .next u' ∧ s.inp.sampleLeft = s'.inp.sampleLeft ∧
      s.inp.sampleRight = s'.inp.sampleRight ∧ s.cycle = s'.cycle ∧ s.draws = s'.draws ∧ s.h ≠ s'.h :=
  ⟨busy, { busy with h := State.reset.h }, _, _, rfl, rfl, rfl, rfl, admitted (by decide), admitted (by decide), rfl,
    rfl, rfl, rfl, by decide⟩

theorem witness_HandlerIgnoresTheTransmitter :
    ∃ s s' u u', s.cfg = s'.cfg ∧ s.h = s'.h ∧ s.inp.setup = s'.inp.setup ∧ s.inp.setupRcv = s'.inp.setupRcv ∧
      s.inp.dataReq = s'.inp.dataReq ∧ s.inp.statusReq = s'.inp.statusReq ∧ s.inp.rxReady = s'.inp.rxReady ∧
      s.inp.ackIn = s'.inp.ackIn ∧ s.inp.rxDone = s'.inp.rxDone ∧ s.inp.rxPayload = s'.inp.rxPayload ∧
      step s = .next u ∧ step s' = .next u' ∧ s.t ≠ s'.t :=
  ⟨busy, { busy with t := State.reset.t }, _, _, rfl, rfl, rfl, rfl, rfl, rfl, rfl, rfl, rfl, rfl,
    admitted (by decide), admitted (by decide), by decide⟩

theorem witness_DrawsReachNoRegister :
    ∃ (s u v : State) (a b : Nat), step { s with draws := a } = .next u ∧ step { s with draws := b } = .next v ∧
      s.Inv ∧ s.t.st = .run ∧ s.cycle ≠ 0 ∧ a ≠ b :=
  ⟨busy, _, _, 3, 8, admitted (by decide), admitted (by decide), busy_inv, rfl, by decide, by decide⟩

/-- Cycle 0 with a start and a dispatch; T in IDLE while H serves; H in IDLE while T runs; a refusal. -/
theorem witness_UnspecifiedResetRegistersReachNothing :
    (∃ s s' u, s.AgreeOnWritten s' ∧ step s = .next u ∧ s.cycle = 0 ∧ s.t.np ≠ s'.t.np ∧ s.h.gSetup ≠ s'.h.gSetup) ∧
    (∃ s s' u, s.AgreeOnWritten s' ∧ step s = .next u ∧ s.h.st ≠ .idle ∧ s.t.cnt ≠ s'.t.cnt) ∧
    (∃ s s' u, s.AgreeOnWritten s' ∧ step s = .next u ∧ s.t.st = .run ∧ s.h.gSetup ≠ s'.h.gSetup) ∧
    (∃ s s' : State, s.AgreeOnWritten s' ∧ step s = .refused .widthRange ∧ s.t.lb ≠ s'.t.lb) :=
  let f := Setup.classRequest false 0x01 pdSel 1
  let p := { presented f with inp := { (presented f).inp with divider := 1, width := 2 } }
  let q := serving .handleCurrent false pdSel 1 true donePulse
  let r := runAt 1 true 0 .right .right
  ⟨⟨p, { p with t := { p.t with np := .right, cnt := 7 }, h := { p.h with gSetup := f } }, _, by decide,
      admitted (by decide), rfl, by decide, by decide⟩,
    ⟨q, { q with t := { q.t with cnt := 7 } }, _, by decide, admitted (by decide), by decide, by decide⟩,
    ⟨r, { r with h := { r.h with gSetup := f } }, _, by decide, admitted (by decide), rfl, by decide⟩,
    ⟨txIdle 1 24, { txIdle 1 24 with t := { (txIdle 1 24).t with lb := 9 } }, by decide, rfl, by decide⟩⟩

/-- TxIdleHold, TxStart: admitted, and the refused width at its least value. The key clauses have no
hypothesis. -/
theorem witness_transmitter_idle_operations :
    (txIdle 1 23).TxAdmitted ∧ (txIdle 1 24).t.st = .idle ∧ 23 < (txIdle 1 24).width.toNat := by decide

/-- TxCount, TxToggleInactive, TxWrap, TxAdvance, TxAdvanceFlip, RunIsLeftOnlyByReset: admitted in RUN, and
a changed width or divider. -/
theorem witness_transmitter_run_operations :
    busy.TxAdmitted ∧ busy.t.st = .run ∧
      (let s := { busy with inp := { busy.inp with width := 3 } };
        s.t.st = .run ∧ (s.divider ≠ s.t.gDiv ∨ s.width ≠ s.t.gWid)) := by decide

theorem witness_RunIsLeftOnlyByReset : ∃ s u, s.t.st = .run ∧ step s = .next u := ⟨busy, _, rfl, admitted (by decide)⟩

/-- Rows 12 and 13 of the trace 2.1. -/
theorem witness_NeedSamplePulseLastsOneCycle :
    ∃ s u v, s.Inv ∧ s.cycle ≠ 0 ∧ step s = .next u ∧ step u = .next v ∧ u.out.needSample = true :=
  ⟨runAt 0 false 2 .right .left, _, _, by decide, by decide, admitted (by decide), admitted (by decide), rfl⟩

/-- The three level clauses at their ends: the last tick of the old level, the last of the new, the period. -/
theorem witness_BitClockTogglesEveryDividerPlusOneTicks :
    let s := runAt 0 false 0 .right .right
    s.Inv ∧ s.t.st = .run ∧ s.HeldConfig ∧
    (∃ u, runTicks 1 s = .next u ∧ 1 ≤ s.divider - s.t.cnt) ∧
    (∃ u, runTicks 3 s = .next u ∧ s.divider - s.t.cnt < 3 ∧ 3 ≤ s.divider - s.t.cnt + (s.divider + 1)) ∧
    (∃ u, runTicks 4 s = .next u ∧ 4 = 2 * (s.divider + 1)) := by
  intro s
  obtain ⟨u, hu⟩ := next_of (o := runTicks 1 s) (by decide)
  obtain ⟨v, hv⟩ := next_of (o := runTicks 3 s) (by decide)
  obtain ⟨w, hw⟩ := next_of (o := runTicks 4 s) (by decide)
  exact ⟨by decide, rfl, by decide, ⟨u, hu, by decide⟩, ⟨v, hv, by decide, by decide⟩, ⟨w, hw, by decide⟩⟩

/-- WordSchedule and NeedSampleSchedule, with n = 1 the last bit of a word of width 1 (the pulse) and r at
both ends of its range. -/
theorem witness_schedules_after_a_start :
    ∃ (s u : State) (n : Nat), s.t.st = .idle ∧ s.divider ≠ 0 ∧ s.width ≠ 0 ∧ s.HeldConfig ∧
      0 < 2 * (s.divider + 1) ∧ (n + 1) % (s.width.toNat + 1) = 0 ∧
      runTicks (2 + (firstActive s.cfg s.t.clk + 2 * n) * (s.divider + 1) + 0) s = .next u := by
  obtain ⟨u, h⟩ := next_of (o := runTicks 6 (txIdle 1 1)) (by decide)
  exact ⟨txIdle 1 1, u, 1, rfl, by decide, by decide, by decide, by decide, by decide, h⟩

theorem witness_schedules_at_the_last_tick :
    ∃ (s u : State) (n r : Nat), s.t.st = .idle ∧ s.divider ≠ 0 ∧ s.width ≠ 0 ∧ s.HeldConfig ∧
      r < 2 * (s.divider + 1) ∧ ¬r < s.divider + 1 ∧
      runTicks (2 + (firstActive s.cfg s.t.clk + 2 * n) * (s.divider + 1) + r) s = .next u := by
  obtain ⟨u, h⟩ := next_of (o := runTicks 5 (txIdle 1 1)) (by decide)
  exact ⟨txIdle 1 1, u, 0, 3, rfl, by decide, by decide, by decide, by decide, by decide, h⟩

theorem witness_BeforeTheFirstWordTheLeftBitIsShown :
    ∃ (s u : State) (q : Nat), s.t.st = .idle ∧ s.divider ≠ 0 ∧ s.width ≠ 0 ∧ s.HeldConfig ∧
      q < 1 + firstActive s.cfg s.t.clk * (s.divider + 1) ∧ runTicks (1 + q) s = .next u := by
  obtain ⟨u, h⟩ := next_of (o := runTicks 1 (txIdle 1 1)) (by decide)
  exact ⟨txIdle 1 1, u, 0, rfl, by decide, by decide, by decide, by decide, h⟩

/-- The last cycle before the first active edge, where the clock starts at the active level (BeforeTheFirstWord,
NeedSampleSchedule). -/
theorem witness_before_the_first_active_edge :
    ∃ (s u : State) (q : Nat), s.Inv ∧ s.t.st = .idle ∧ s.divider ≠ 0 ∧ s.width ≠ 0 ∧ s.HeldConfig ∧
      q + 1 = 1 + firstActive s.cfg s.t.clk * (s.divider + 1) ∧ 0 < q ∧ runTicks (1 + q) s = .next u := by
  obtain ⟨u, h⟩ := next_of (o := runTicks 3 (txAt .idle 9 false 3 3 .left .right .right 1 2)) (by decide)
  exact ⟨txAt .idle 9 false 3 3 .left .right .right 1 2, u, 2, by decide, rfl, by decide, by decide, by decide, by decide,
    by decide, h⟩

/-- CurRequests and OtherRequests: IDLE, and not IDLE. -/
theorem witness_requests : State.reset.h.st = .idle ∧ busy.h.st ≠ .idle := by decide

theorem witness_GetDrivePresentsTheResolvedValue :
    (∃ s u, .getDrive ∈ s.operations ∧ step s = .next u) ∧ (∃ s u, .getDrive ∉ s.operations ∧ step s = .next u) :=
  ⟨⟨serving .handleCurrent true pdSel 1 false noPulse, _, by decide, admitted (by decide)⟩,
    ⟨busy, _, by decide, admitted (by decide)⟩⟩

theorem witness_SetDrivePresentsTheResolvedLength :
    (∃ s u, .setDrive ∈ s.operations ∧ step s = .next u) ∧ (∃ s u, .setDrive ∉ s.operations ∧ step s = .next u) :=
  ⟨⟨busy, _, by decide, admitted (by decide)⟩,
    ⟨serving .handleCurrent true pdSel 1 false noPulse, _, by decide, admitted (by decide)⟩⟩

/-- NpUpdateCopiesThePendingChannel and SetCommitStoresTheReceivedByte: any step. -/
theorem witness_step : ∃ u, step busy = .next u := ⟨_, admitted (by decide)⟩

theorem witness_HoldWaitsForTheNextPulse : ∃ s u, .hold ∈ s.operations ∧ step s = .next u :=
  ⟨serving .unhandled true pdSel 1 false ackPulse, _, by decide, admitted (by decide)⟩

theorem witness_SettingChangesOnlyByACommit :
    ∃ s u, step s = .next u ∧ u.h.pds ≠ s.h.pds ∧ s.Inv ∧ s.h.trig = true :=
  ⟨busy, _, admitted (by decide), by decide, busy_inv, rfl⟩

/-- A commit in the transfer's last cycle, a GET presented in the next, its data stage in the one after. -/
theorem witness_CommittedByteIsReadBack :
    ∃ (s u v w : State) (n : Nat), .setCommit ∈ s.operations ∧ step s = .next u ∧ runTicks n u = .next v ∧
      (∀ k < n, ∀ x, runTicks k u = .next x → .setCommit ∉ x.operations) ∧
      .getDataMatch ∈ v.operations ∧ v.selPD = true ∧ step v = .next w := by
  let f := Setup.classRequest true 0x01 pdSel 1
  let s : State := (serving .handleCurrent false pdSel 1 true noPulse).withStimulus
    [donePulse (ackPulse (serving .handleCurrent false pdSel 1 true noPulse).inp),
      { Inputs.quiet with setup := f, setupRcv := true }, dataPulse { Inputs.quiet with setup := f }]
  refine ⟨s, nextState s, nextState (nextState s), _, 1, by decide, admitted (by decide), ?_, ?_, by decide, by decide,
    admitted (by decide)⟩
  · simp only [runTicks, admitted (s := nextState s) (by decide)]
  · intro k hk x hx
    obtain rfl : k = 0 := by omega
    simp only [runTicks, Host.Outcome.next.injEq] at hx
    rw [← hx]
    decide

/-- Two GET cycles of the power domain with one cycle between. -/
theorem witness_CommittedByteIsReadBack_two_gets :
    ∃ (s u v w : State) (n : Nat), step s = .next u ∧ runTicks n u = .next v ∧
      (∀ k < n, ∀ x, runTicks k u = .next x → .setCommit ∉ x.operations) ∧ v.selPD = true ∧ step v = .next w ∧
      .getDrive ∈ s.operations ∧ s.selPD = true ∧ .getDrive ∈ v.operations := by
  let s := serving .handleCurrent true pdSel 1 false noPulse
  refine ⟨s, nextState s, nextState (nextState s), _, 1, admitted (by decide), ?_, ?_, by decide, admitted (by decide),
    by decide, by decide, by decide⟩
  · simp only [runTicks, admitted (s := nextState s) (by decide)]
  · intro k hk x hx
    obtain rfl : k = 0 := by omega
    simp only [runTicks, Host.Outcome.next.injEq] at hx
    rw [← hx]
    decide

theorem witness_ReceiveAdapterStartsOncePerTransfer :
    (∃ s u, step s = .next u ∧ u.out.rxStart = true) ∧ (∃ s u, step s = .next u ∧ s.h.st ≠ .idle ∧ s.h.trig = true) :=
  ⟨⟨serving .handleCurrent false pdSel 1 false noPulse, _, admitted (by decide), by decide⟩,
    ⟨busy, _, admitted (by decide), by decide, rfl⟩⟩

/-- A dispatch, a cycle of a transfer, and the end of one. -/
theorem witness_HandlerTakesOneTransferAtATime :
    (∃ s u, step s = .next u ∧ s.h.st = .idle ∧ u.h.st ≠ .idle) ∧ (∃ s u, step s = .next u ∧ s.h.st ≠ .idle) ∧
    (∃ s u, step s = .next u ∧ s.h.st ≠ .idle ∧ u.h.st = .idle) :=
  ⟨⟨presented (Setup.classRequest true 0x01 pdSel 1), _, admitted (by decide), rfl, by decide⟩,
    ⟨busy, _, admitted (by decide), by decide⟩,
    ⟨serving .handleCurrent true pdSel 1 false statusPulse, _, admitted (by decide), by decide, by decide⟩⟩

theorem witness_StallAnswersAnErrorAndReturnsToIdle : ∃ s u, step s = .next u ∧ u.out.stallOut = true :=
  ⟨serving .unhandled true pdSel 1 false dataPulse, _, admitted (by decide), by decide⟩

/-- The four clauses, with length 0 and length 1. -/
theorem witness_UnknownSelectorHasLengthZero :
    (∀ len ∈ [(0 : Length), 1], ∃ s u, step s = .next u ∧ s.h.st = .handleCurrent ∧ s.selPD = false ∧
      s.inp.setup.isIn = true ∧ s.inp.dataReq = true ∧ s.inp.setup.length = len) ∧
    (∀ len ∈ [(0 : Length), 1], ∃ s u, step s = .next u ∧ s.h.st = .handleCurrent ∧ s.selPD = false ∧
      s.inp.setup.isIn = false ∧ s.h.trig = false ∧ s.inp.setup.length = len) := by
  simp only [List.forall_mem_cons, List.not_mem_nil, false_imp_iff, implies_true, and_true]
  exact ⟨⟨⟨serving .handleCurrent true otherSel 0 false dataPulse, _, admitted (by decide), by decide⟩,
      ⟨serving .handleCurrent true otherSel 1 false dataPulse, _, admitted (by decide), by decide⟩⟩,
    ⟨serving .handleCurrent false otherSel 0 false noPulse, _, admitted (by decide), by decide⟩,
    ⟨serving .handleCurrent false otherSel 1 false noPulse, _, admitted (by decide), by decide⟩⟩

/-- DecodeInvertsEncode, and the two halves of EventKeysSelectTheMatchingRows. -/
theorem witness_encodings :
    (Instr.getCurOther otherSel 1).wf Config.vectors = true ∧
      ((0b1100000000000 : BitVec 13).getLsbD 12 = true ∧ (0b1100000000000 : BitVec 13).getLsbD 11 = true) ∧
      ¬((0b1011111111111 : BitVec 13).getLsbD 12 = true ∧ (0b1011111111111 : BitVec 13).getLsbD 11 = true) := by decide

end Sys2Proof.Tests
end

section
/-! PROOFS. Which cycles are answered, what every step does to the parameters and the inputs (spec/00_scope.md
R6, R7, R13), and the isolation of T and H (R9, R70): each part of the closed form `nextState` is a function
of the part of the state that its machine can see. -/

namespace Sys2Proof.Machine

/-! ### Admission and the tick -/

/-- Settles O6: a step answers exactly when no refusal check fires, and the two checks are the two duties. -/
theorem stepAnswersExactlyWhenAdmitted : Obligations.StepAnswersExactlyWhenAdmitted := by
  intro s
  calc (∃ u, step s = .next u)
      ↔ s.refusal = none := by simp only [step_next_iff, exists_and_left, exists_eq, and_true]
    _ ↔ s.refusalT = none ∧ s.refusalH = none := s.refusal_none_iff
    _ ↔ s.TxAdmitted ∧ s.HandlerAdmitted := and_congr s.refusalT_none_iff s.refusalH_none_iff

/-- Settles O8: read off the closed form of the step, by whether the stimulus names a next cycle. -/
theorem stepAdvancesTheCycle : Obligations.StepAdvancesTheCycle := by
  intro s u h
  obtain ⟨-, rfl⟩ := (step_next_iff s u).1 h
  refine ⟨rfl, rfl, fun i l hs => ?_, fun hs => ?_⟩
  · simp only [nextState, hs, List.headD_cons, List.tail_cons, and_self]
  · simp only [nextState, hs, List.headD_nil, List.tail_nil, Inputs.hold, and_self]

/-! ### What T sees -/

/-- The two states show T the same parameters, registers, divider and width. -/
structure State.SameForT (s s' : State) : Prop where
  cfg : s.cfg = s'.cfg
  t : s.t = s'.t
  divider : s.inp.divider = s'.inp.divider
  width : s.inp.width = s'.inp.width

namespace State.SameForT

variable {s s' : State}

theorem onDivBits_eq (v : s.SameForT s') (n : Nat) : s.onDivBits n = s'.onDivBits n := by
  rw [State.onDivBits, State.onDivBits, v.cfg]

theorem divider_eq (v : s.SameForT s') : s.divider = s'.divider := by
  rw [State.divider, State.divider, v.onDivBits_eq, v.divider]

theorem width_eq (v : s.SameForT s') : s.width = s'.width := v.width

theorem txKey_eq (v : s.SameForT s') : s.txKey = s'.txKey := by
  simp only [State.txKey, State.running, State.disabled, State.countDone, State.towardActive, State.atWrap,
    State.atLastBit, v.cfg, v.t, v.divider_eq, v.width_eq]

/-- T's registers in the next state are a function of what T sees (R101 to R109). -/
theorem txWrites_eq (v : s.SameForT s') : txWrites s = txWrites s' := by
  obtain ⟨hs, hz, he, ha, hw, hb⟩ := TxKey.mk.inj v.txKey_eq
  unfold txWrites
  simp only [hs, hz, he, ha, hw, hb, v.t, v.divider_eq, v.width_eq, v.onDivBits_eq]

theorem bclkLevel_eq (v : s.SameForT s') : s.bclkLevel = s'.bclkLevel := by
  rw [State.bclkLevel, State.bclkLevel, v.t]

theorem wsLevel_eq (v : s.SameForT s') : s.wsLevel = s'.wsLevel := by
  rw [State.wsLevel, State.wsLevel, v.t]

theorem bitIndex_eq (v : s.SameForT s') : s.bitIndex = s'.bitIndex := by
  rw [State.bitIndex, State.bitIndex, v.t, v.width_eq]

/-- `sd` needs the samples too, and the draw where the spec gives no level (R112). -/
theorem sdLevel_eq (v : s.SameForT s') (hl : s.inp.sampleLeft = s'.inp.sampleLeft)
    (hr : s.inp.sampleRight = s'.inp.sampleRight) (hd : s.draws = s'.draws) : s.sdLevel = s'.sdLevel := by
  have hsample (c : Channel) : s.sampleOf c = s'.sampleOf c := by
    cases c with
    | left => exact hl
    | right => exact hr
  rw [State.sdLevel, State.sdLevel, State.running, State.running, State.sampleBit, State.sampleBit, v.bitIndex_eq,
    v.t, hsample, hd]

/-- `needSample` needs the cycle number too, and the draw of cycle 0 (R113). -/
theorem needSampleLevel_eq (v : s.SameForT s') (hc : s.cycle = s'.cycle) (hd : s.cycle = 0 → s.draws = s'.draws) :
    s.needSampleLevel = s'.needSampleLevel := by
  unfold State.needSampleLevel
  by_cases h0 : s.cycle = 0
  · rw [if_pos h0, if_pos (hc ▸ h0), hd h0]
  · rw [if_neg h0, if_neg (hc ▸ h0), v.t]

end State.SameForT

/-- Settles O13: the next T registers and T's levels are functions of what T sees. -/
theorem transmitterIgnoresTheHandler : Obligations.TransmitterIgnoresTheHandler := by
  intro s s' u u' hcfg ht hdiv hwid h h'
  have v : s.SameForT s' := ⟨hcfg, ht, hdiv, hwid⟩
  obtain ⟨-, rfl⟩ := (step_next_iff s u).1 h
  obtain ⟨-, rfl⟩ := (step_next_iff s' u').1 h'
  obtain ⟨hb, hws, hsd, hn⟩ := cycleOutputs_transmitter s
  obtain ⟨hb', hws', hsd', hn'⟩ := cycleOutputs_transmitter s'
  refine ⟨v.txWrites_eq, ?_, ?_, fun hl hr hc hd => ⟨?_, ?_⟩⟩
  · exact hb.trans (v.bclkLevel_eq.trans hb'.symm)
  · exact hws.trans (v.wsLevel_eq.trans hws'.symm)
  · exact hsd.trans ((v.sdLevel_eq hl hr hd).trans hsd'.symm)
  · exact hn.trans ((v.needSampleLevel_eq hc fun _ => hd).trans hn'.symm)

/-! ### What H sees -/

/-- The two states show H the same parameters, registers and inputs. -/
structure State.SameForH (s s' : State) : Prop where
  cfg : s.cfg = s'.cfg
  h : s.h = s'.h
  setup : s.setup = s'.setup
  setupRcv : s.inp.setupRcv = s'.inp.setupRcv
  dataReq : s.inp.dataReq = s'.inp.dataReq
  statusReq : s.inp.statusReq = s'.inp.statusReq
  rxReady : s.inp.rxReady = s'.inp.rxReady
  ackIn : s.inp.ackIn = s'.inp.ackIn
  rxDone : s.inp.rxDone = s'.inp.rxDone
  rxPayload : s.inp.rxPayload = s'.inp.rxPayload

/-- The pulse outputs of H (R48, R49) are the same. -/
structure Outputs.SamePulses (o o' : Outputs) : Prop where
  ackOut : o.ackOut = o'.ackOut
  stallOut : o.stallOut = o'.stallOut
  zlpOut : o.zlpOut = o'.zlpOut
  txStart : o.txStart = o'.txStart
  rxStart : o.rxStart = o'.rxStart

namespace State.SameForH

variable {s s' : State}

theorem eligible_eq (v : s.SameForH s') : s.eligible = s'.eligible := by
  rw [State.eligible, State.eligible, v.setup]

theorem isCur_eq (v : s.SameForH s') : s.isCur = s'.isCur := by
  rw [State.isCur, State.isCur, v.setup, v.cfg]

theorem selPD_eq (v : s.SameForH s') : s.selPD = s'.selPD := by
  rw [State.selPD, State.selPD, v.setup, v.cfg]

theorem lenMatch_eq (v : s.SameForH s') : s.lenMatch = s'.lenMatch := by
  rw [State.lenMatch, State.lenMatch, State.resLen, State.resLen, v.setup, v.cfg]

/-- H's registers in the next state are a function of what H sees (R141 to R159). -/
theorem handlerWrites_eq (v : s.SameForH s') : handlerWrites s = handlerWrites s' := by
  simp only [handlerWrites, v.h, v.setup, v.setupRcv, v.dataReq, v.statusReq, v.ackIn, v.rxDone, v.rxPayload,
    v.eligible_eq, v.isCur_eq, v.selPD_eq, v.lenMatch_eq]

/-- The pulses of a cycle are a function of what H sees; the levels and the draws of `idleOutputs` reach none
of them (R140 to R159). -/
theorem cycleOutputs_samePulses (v : s.SameForH s') : (cycleOutputs s).SamePulses (cycleOutputs s') := by
  simp only [cycleOutputs, v.h, v.setup, v.dataReq, v.statusReq, v.rxReady, v.lenMatch_eq]
  cases s'.h.st with
  | idle => exact ⟨rfl, rfl, rfl, rfl, rfl⟩
  | handleCurrent => cases s'.setup.isIn <;> exact ⟨rfl, rfl, rfl, rfl, rfl⟩
  | unhandled => exact ⟨rfl, rfl, rfl, rfl, rfl⟩

end State.SameForH

/-- Settles O14: the next H registers and the pulses are functions of what H sees. -/
theorem handlerIgnoresTheTransmitter : Obligations.HandlerIgnoresTheTransmitter := by
  intro s s' u u' hcfg hh hset hrcv hdata hstat hrdy hack hdone hpay h h'
  have v : s.SameForH s' := ⟨hcfg, hh, hset, hrcv, hdata, hstat, hrdy, hack, hdone, hpay⟩
  obtain ⟨-, rfl⟩ := (step_next_iff s u).1 h
  obtain ⟨-, rfl⟩ := (step_next_iff s' u').1 h'
  obtain ⟨hak, hsl, hz, htx, hrx⟩ := v.cycleOutputs_samePulses
  exact ⟨v.handlerWrites_eq, hak, hsl, hz, htx, hrx⟩

/-! ### Draws -/

/-- In an admitted RUN cycle the bit index of `sd` names a bit of the word (R34, R66). -/
theorem State.Inv.bitIndex_le {s : State} (hi : s.Inv) (ha : s.TxAdmitted) (hr : s.t.st = .run) :
    s.bitIndex ≤ 23 := by
  obtain ⟨-, -, -, hrun, -⟩ := hi
  obtain ⟨-, -, -, -, hbp, -⟩ := hrun hr
  obtain ⟨hheld, hw⟩ := ha
  have hle : s.t.bp ≤ s.width := by rw [(hheld hr).2]; exact BitVec.le_def.2 hbp
  calc s.bitIndex = s.width.toNat - s.t.bp.toNat := BitVec.toNat_sub_of_le hle
    _ ≤ 23 := (Nat.sub_le _ _).trans hw

/-- In an admitted RUN cycle `sd` is a bit of the active channel's word, and no draw (R112). -/
theorem State.Inv.sdLevel_run {s : State} (hi : s.Inv) (ha : s.TxAdmitted) (hr : s.t.st = .run) :
    s.sdLevel = s.sampleBit s.t.cur s.bitIndex := by
  rw [State.sdLevel, (running_iff s).2 hr, decide_eq_true (hi.bitIndex_le ha hr)]
  rfl

/-- Settles O15: the draw counter is no part of what T or H sees, and `sd` in RUN and `needSample` from
cycle 1 on read no draw. -/
theorem drawsReachNoRegister : Obligations.DrawsReachNoRegister := by
  intro s u v a b hu hv
  obtain ⟨hadm, rfl⟩ := (step_next_iff _ u).1 hu
  obtain ⟨-, rfl⟩ := (step_next_iff _ v).1 hv
  have hT : State.SameForT { s with draws := a } { s with draws := b } := ⟨rfl, rfl, rfl, rfl⟩
  have hH : State.SameForH { s with draws := a } { s with draws := b } :=
    ⟨rfl, rfl, rfl, rfl, rfl, rfl, rfl, rfl, rfl, rfl⟩
  obtain ⟨hb, hws, hsd, hn⟩ := cycleOutputs_transmitter { s with draws := a }
  obtain ⟨hb', hws', hsd', hn'⟩ := cycleOutputs_transmitter { s with draws := b }
  obtain ⟨hak, hsl, hz, htx, hrx⟩ := hH.cycleOutputs_samePulses
  refine ⟨rfl, hT.txWrites_eq, hH.handlerWrites_eq, rfl, rfl, rfl, hb.trans (hT.bclkLevel_eq.trans hb'.symm),
    hws.trans (hT.wsLevel_eq.trans hws'.symm), hak, hsl, hz, htx, hrx, fun hi hr => ?_, fun h0 => ?_⟩
  · have ha : s.TxAdmitted := (s.refusalT_none_iff).1 ((s.refusal_none_iff).1 hadm).1
    have hsdRun (n : Nat) : State.sdLevel { s with draws := n } = s.sampleBit s.t.cur s.bitIndex :=
      State.Inv.sdLevel_run (s := { s with draws := n }) hi ha hr
    exact hsd.trans ((hsdRun a).trans ((hsdRun b).symm.trans hsd'.symm))
  · exact hn.trans ((hT.needSampleLevel_eq rfl fun hc => absurd hc h0).trans hn'.symm)

end Sys2Proof.Machine
end

section
/-! PROOFS. Reset, the invariant of the machine (spec/10_state.md R33, R34, R50), the two laws of H's registers
(R41, R42), and the registers that reset leaves unspecified. What T and H write in a cycle is said once: T's
writes by the operation that the key selects, H's by the state it is in. -/

namespace Sys2Proof.Machine

/-! ### Reset -/

/-- Settles O1: the values stand in the reset state as they are. -/
theorem resetLeavesBothMachinesIdle : Obligations.ResetLeavesBothMachinesIdle :=
  fun _ => ⟨rfl, rfl, rfl, rfl, rfl, rfl, rfl⟩

/-- Settles O2: both machines are in IDLE and the cycle is 0, so that the clauses on RUN, on a transfer and on
`T.np` ask nothing. -/
theorem resetMeetsTheInvariant : Obligations.ResetMeetsTheInvariant := by
  refine ⟨rfl, fun cfg hwf => ⟨hwf, ?width, ?idle, ?run, ?serve, ?trig, ?copy⟩⟩
  case width => exact ⟨Nat.two_pow_pos _, Nat.two_pow_pos _⟩
  case idle => exact fun _ => ⟨rfl, rfl⟩
  case run => exact fun hrun => by cases hrun
  case serve => exact fun hne => absurd rfl hne
  case trig => exact fun hne => absurd rfl hne
  case copy => exact fun _ hcycle => absurd rfl hcycle

/-! ### What a step tells -/

/-- A step that answers was admitted by both machines, and answers the closed form. -/
theorem step_next_admitted {s u : State} (h : step s = .next u) :
    s.TxAdmitted ∧ s.HandlerAdmitted ∧ u = nextState s := by
  obtain ⟨hadm, hu⟩ := (step_next_iff s u).1 h
  obtain ⟨hT, hH⟩ := (s.refusal_none_iff).1 hadm
  exact ⟨(s.refusalT_none_iff).1 hT, (s.refusalH_none_iff).1 hH, hu⟩

/-! ### What T writes -/

/-- T in IDLE holds or starts (R102, R103). -/
theorem txWrites_idle {s : State} (hi : s.t.st = .idle) :
    txWrites s =
      if s.disabled then { s.t.homeChannels with np := s.t.nxt }
      else
        { s.t.homeChannels with
          st := .run, cnt := s.divider, bp := s.width, lb := s.width - 1, gDiv := s.divider, gWid := s.width
          np := s.t.nxt } := by
  simp only [txWrites, (not_running_iff s).2 hi, Bool.false_eq_true, if_false]

/-- No operation of T leaves RUN (R123). -/
theorem txWrites_run {s : State} (hr : s.t.st = .run) : (txWrites s).st = .run := by
  rw [txWrites, if_pos ((running_iff s).2 hr)]
  split_ifs <;> exact hr

/-- T in RUN counts until the divider is reached (R104). -/
theorem txWrites_count {s : State} (hr : s.t.st = .run) (he : s.t.cnt ≠ s.divider) :
    txWrites s = { s.t with cnt := s.onDivBits (s.t.cnt + 1), np := s.t.nxt } := by
  have hcount : s.countDone = false := beq_eq_false_iff_ne.2 he
  simp only [txWrites, (running_iff s).2 hr, hcount, Bool.false_eq_true, if_true, if_false]

/-- Both advances move the position on by one, and neither fires at the wrap marker (R108, R109). -/
theorem txWrites_bp_of_advance {s : State} (h : .txAdvance ∈ s.operations ∨ .txAdvanceFlip ∈ s.operations) :
    (txWrites s).bp = s.t.bp + 1 ∧ s.t.bp ≠ s.width := by
  rw [mem_operations_transmitter rfl, mem_operations_transmitter rfl, operation_iff, operation_iff] at h
  have hkey : s.running = true ∧ s.countDone = true ∧ s.towardActive = true ∧ s.atWrap = false := by
    rcases h with ⟨hs, he, ha, hw, -⟩ | ⟨hs, he, ha, hw, -⟩ <;> exact ⟨hs, he, ha, hw⟩
  obtain ⟨hs, he, ha, hw⟩ := hkey
  refine ⟨?_, beq_eq_false_iff_ne.1 hw⟩
  simp only [txWrites, hs, he, ha, hw, Bool.false_eq_true, if_true, if_false]
  split <;> rfl

/-- T's writes by the seven operations of which a cycle has exactly one (R100, R102 to R109). -/
theorem txWrites_cases (s : State) {P : TxRegs → Prop}
    (idleHold : s.t.st = .idle → P { s.t.homeChannels with np := s.t.nxt })
    (start : s.t.st = .idle → s.divider ≠ 0 → s.width ≠ 0 →
      P { s.t.homeChannels with
          st := .run, cnt := s.divider, bp := s.width, lb := s.width - 1, gDiv := s.divider, gWid := s.width
          np := s.t.nxt })
    (count : s.t.st = .run → s.t.cnt ≠ s.divider →
      P { s.t with cnt := s.onDivBits (s.t.cnt + 1), np := s.t.nxt })
    (toggleInactive : s.t.st = .run → P { s.t.toggle with np := s.t.nxt })
    (wrap : s.t.st = .run → P { s.t.activeEdge with bp := 0, np := s.t.nxt })
    (advance : s.t.st = .run → s.t.bp ≠ s.width → s.t.bp ≠ s.t.lb →
      P { s.t.activeEdge with bp := s.t.bp + 1, np := s.t.nxt })
    (advanceFlip : s.t.st = .run → s.t.bp ≠ s.width → s.t.bp = s.t.lb →
      P { s.t.activeEdge with bp := s.t.bp + 1, nxt := s.t.nxt.flip, np := s.t.nxt }) :
    P (txWrites s) := by
  cases hst : s.t.st with
  | idle =>
    rw [txWrites_idle hst]
    split
    · exact idleHold hst
    · rename_i hz
      obtain ⟨hd, hw⟩ : s.divider ≠ 0 ∧ s.width ≠ 0 := by simpa [State.disabled] using hz
      exact start hst hd hw
  | run =>
    by_cases he : s.t.cnt = s.divider
    · have hdone : s.countDone = true := beq_iff_eq.2 he
      unfold txWrites
      rw [if_pos ((running_iff s).2 hst), if_pos hdone]
      split_ifs with ha hw hb
      · exact wrap hst
      · exact advanceFlip hst (by simpa [State.atWrap] using hw) (beq_iff_eq.1 hb)
      · exact advance hst (by simpa [State.atWrap] using hw) (by simpa [State.atLastBit] using hb)
      · exact toggleInactive hst
    · rw [txWrites_count hst he]
      exact count hst he

/-! ### The bounds of R34 in an admitted RUN cycle -/

theorem State.onDivBits_lt (s : State) (n : Nat) : s.onDivBits n < 2 ^ s.cfg.divWidth :=
  Nat.mod_lt _ (Nat.two_pow_pos _)

/-- The bounds of R34, on the ports of the cycle. -/
structure State.RunBounds (s : State) : Prop where
  one_le_divider : 1 ≤ s.divider
  cnt_le : s.t.cnt ≤ s.divider
  one_le_width : 1 ≤ s.width.toNat
  width_le : s.width.toNat ≤ 23
  bp_le : s.t.bp.toNat ≤ s.width.toNat
  lb_succ : s.t.lb.toNat + 1 = s.width.toNat

/-- An admitted RUN cycle has the divider and width that T was started with (R114). -/
theorem State.TxAdmitted.runBounds {s : State} (ha : s.TxAdmitted) (hi : s.t.RunInv) (hr : s.t.st = .run) :
    s.RunBounds := by
  obtain ⟨hdiv, hcnt, hwid, hwid', hbp, hlb, -⟩ := hi hr
  obtain ⟨hd, hw⟩ := ha.1 hr
  rw [← hd] at hdiv hcnt
  rw [← hw] at hwid hwid' hbp hlb
  have hlb' : s.t.lb.toNat + 1 = s.width.toNat := by rw [hlb]; bv_omega
  exact ⟨hdiv, hcnt, hwid, hwid', hbp, hlb'⟩

namespace State.RunBounds

variable {s : State}

/-- A count does not wrap around: `T.cnt + 1` is at most the divider, which fits DIV_WIDTH bits (R122). -/
theorem onDivBits_cnt_succ (hb : s.RunBounds) (he : s.t.cnt ≠ s.divider) :
    s.onDivBits (s.t.cnt + 1) = s.t.cnt + 1 := by
  have hle : s.t.cnt + 1 ≤ s.divider := Nat.lt_of_le_of_ne hb.cnt_le he
  exact Nat.mod_eq_of_lt (hle.trans_lt (s.onDivBits_lt _))

theorem bp_lt (hb : s.RunBounds) (hw : s.t.bp ≠ s.width) : s.t.bp.toNat < s.width.toNat :=
  Nat.lt_of_le_of_ne hb.bp_le fun h => hw (BitVec.eq_of_toNat_eq h)

/-- An advance does not wrap around (R122). -/
theorem bp_succ (hb : s.RunBounds) (hw : s.t.bp ≠ s.width) : (s.t.bp + 1).toNat = s.t.bp.toNat + 1 := by
  have hlt := hb.bp_lt hw
  have hle := hb.width_le
  bv_omega

/-- The bit index does not wrap around (R66, R122). -/
theorem bitIndex_toNat (hb : s.RunBounds) : (s.width - s.t.bp).toNat = s.width.toNat - s.t.bp.toNat :=
  BitVec.toNat_sub_of_le (BitVec.le_def.2 hb.bp_le)

/-- An advance reaches the wrap marker exactly from the last bit index (R109). -/
theorem bp_succ_eq_width_iff (hb : s.RunBounds) : s.t.bp + 1 = s.width ↔ s.t.bp = s.t.lb := by
  have hlb := hb.lb_succ
  constructor <;> intro h <;> bv_omega

end State.RunBounds

/-- Settles O4: the bounds of R34 on the ports, and each sum and difference under them. -/
theorem runBoundsAndNoWraparound : Obligations.RunBoundsAndNoWraparound := by
  intro s u hinv hr h
  obtain ⟨ha, -, rfl⟩ := step_next_admitted h
  obtain ⟨-, -, -, hrun, -⟩ := hinv
  have hb := ha.runBounds hrun hr
  refine ⟨hb.one_le_divider, hb.cnt_le, hb.one_le_width, hb.width_le, hb.bp_le, hb.lb_succ, hb.bitIndex_toNat,
    fun he => ?count, fun hadv => ?advance⟩
  case count =>
    calc (txWrites s).cnt = s.onDivBits (s.t.cnt + 1) := by rw [txWrites_count hr he]
      _ = s.t.cnt + 1 := hb.onDivBits_cnt_succ he
  case advance =>
    obtain ⟨hbp, hw⟩ := txWrites_bp_of_advance hadv
    calc (txWrites s).bp.toNat = (s.t.bp + 1).toNat := by rw [hbp]
      _ = s.t.bp.toNat + 1 := hb.bp_succ hw

/-! ### T keeps its part of the invariant -/

theorem txWrites_widthInv {s : State} (hw : s.t.WidthInv s.cfg) : (txWrites s).WidthInv s.cfg := by
  obtain ⟨hcnt, hdiv⟩ := hw
  apply txWrites_cases s (P := fun t => t.WidthInv s.cfg)
  case idleHold => exact fun _ => ⟨hcnt, hdiv⟩
  case start => exact fun _ _ _ => ⟨s.onDivBits_lt _, s.onDivBits_lt _⟩
  case count => exact fun _ _ => ⟨s.onDivBits_lt _, hdiv⟩
  case toggleInactive => exact fun _ => ⟨Nat.two_pow_pos _, hdiv⟩
  case wrap => exact fun _ => ⟨Nat.two_pow_pos _, hdiv⟩
  case advance => exact fun _ _ _ => ⟨Nat.two_pow_pos _, hdiv⟩
  case advanceFlip => exact fun _ _ _ => ⟨Nat.two_pow_pos _, hdiv⟩

/-- IDLE comes only from IDLE (R123), which holds the channels (R102) and copies the pending one (R101). -/
theorem txWrites_of_idle {s : State} (hi : s.t.IdleInv) (h : (txWrites s).st = .idle) :
    (txWrites s).cur = .left ∧ (txWrites s).nxt = .right ∧ (txWrites s).np = .right := by
  cases hst : s.t.st with
  | run => exact absurd ((txWrites_run hst).symm.trans h) (by decide)
  | idle =>
    rw [txWrites_idle hst] at h ⊢
    split at h
    · rename_i hz
      rw [if_pos hz]
      exact ⟨rfl, rfl, (hi hst).2⟩
    · cases h

/-- The bounds of R34 and the law of the pending channel are kept, operation by operation (R103 to R109). -/
theorem txWrites_runInv {s : State} (ha : s.TxAdmitted) (hi : s.t.RunInv) : (txWrites s).RunInv := by
  apply txWrites_cases s (P := TxRegs.RunInv)
  case idleHold => exact fun hst hr => absurd (hst.symm.trans hr) (by decide)
  case start =>
    intro _ hd hw _
    have hpos : 1 ≤ s.width.toNat := by bv_omega
    exact ⟨Nat.one_le_iff_ne_zero.2 hd, le_rfl, hpos, ha.2, le_rfl, rfl, iff_of_true Channel.noConfusion rfl⟩
  case count =>
    intro hr he _
    have hb := ha.runBounds hi hr
    obtain ⟨hdiv, -, hrest⟩ := hi hr
    refine ⟨hdiv, ?_, hrest⟩
    calc s.onDivBits (s.t.cnt + 1) = s.t.cnt + 1 := hb.onDivBits_cnt_succ he
      _ ≤ s.divider := Nat.lt_of_le_of_ne hb.cnt_le he
      _ = s.t.gDiv := (ha.1 hr).1
  case toggleInactive =>
    intro hr _
    obtain ⟨hdiv, -, hrest⟩ := hi hr
    exact ⟨hdiv, Nat.zero_le _, hrest⟩
  case wrap =>
    intro hr _
    obtain ⟨hdiv, -, hwid, hwid', -, hlb, -⟩ := hi hr
    have hne : (0 : Width) ≠ s.t.gWid := fun h => by rw [← h] at hwid; cases hwid
    exact ⟨hdiv, Nat.zero_le _, hwid, hwid', Nat.zero_le _, hlb, iff_of_false (fun h => h rfl) hne⟩
  case advance =>
    intro hr hw hlast _
    have hb := ha.runBounds hi hr
    obtain ⟨hdiv, -, hwid, hwid', -, hlb, -⟩ := hi hr
    have hbp : (s.t.bp + 1).toNat ≤ s.t.gWid.toNat := by
      rw [hb.bp_succ hw, ← (ha.1 hr).2]
      exact hb.bp_lt hw
    have hne : s.t.bp + 1 ≠ s.t.gWid := fun h => hlast (hb.bp_succ_eq_width_iff.1 (h.trans (ha.1 hr).2.symm))
    exact ⟨hdiv, Nat.zero_le _, hwid, hwid', hbp, hlb, iff_of_false (fun h => h rfl) hne⟩
  case advanceFlip =>
    intro hr hw hlast _
    have hb := ha.runBounds hi hr
    obtain ⟨hdiv, -, hwid, hwid', -, hlb, -⟩ := hi hr
    have heq : s.t.bp + 1 = s.t.gWid := (hb.bp_succ_eq_width_iff.2 hlast).trans (ha.1 hr).2
    exact ⟨hdiv, Nat.zero_le _, hwid, hwid', (congrArg BitVec.toNat heq).le, hlb, iff_of_true (flip_ne _) heq⟩

/-! ### What H writes -/

theorem handlerWrites_idle {s : State} (hst : s.h.st = .idle) :
    handlerWrites s =
      if s.inp.setupRcv && s.eligible then
        { s.h with st := if s.isCur then .handleCurrent else .unhandled, trig := false, gSetup := s.setup }
      else { s.h with trig := false } := by
  simp only [handlerWrites, hst]

/-- Outside IDLE a transfer keeps its SETUP fields, and goes on in its state or ends (R162). -/
theorem handlerWrites_of_ne_idle {s : State} (hst : s.h.st ≠ .idle) :
    (handlerWrites s).gSetup = s.h.gSetup ∧ ((handlerWrites s).st = s.h.st ∨ (handlerWrites s).st = .idle) := by
  unfold handlerWrites
  cases h : s.h.st with
  | idle => exact absurd h hst
  | handleCurrent =>
    cases s.setup.isIn with
    | true => exact ⟨rfl, (ite_eq_or_eq _ _ _).symm⟩
    | false => exact ⟨rfl, (ite_eq_or_eq _ _ _).symm⟩
  | unhandled => exact ⟨rfl, (ite_eq_or_eq _ _ _).symm⟩

/-- `H.pds` is written by SET_COMMIT alone (R153). -/
theorem handlerWrites_pds (s : State) :
    (handlerWrites s).pds =
      if s.h.st = .handleCurrent ∧ s.setup.isIn = false ∧ s.selPD = true ∧ s.inp.rxDone = true then s.inp.rxPayload
      else s.h.pds := by
  cases h : s.h.st with
  | idle => rw [handlerWrites_idle h]; split <;> rfl
  | handleCurrent => cases hi : s.setup.isIn <;> simp [handlerWrites, h, hi]
  | unhandled => simp [handlerWrites, h]

/-- The receive adapter is started by SET_ARM alone (R151). -/
theorem cycleOutputs_rxStart_iff (s : State) :
    (cycleOutputs s).rxStart = true ↔
      s.h.st = .handleCurrent ∧ s.setup.isIn = false ∧ s.h.trig = false ∧ s.lenMatch = true := by
  unfold cycleOutputs
  cases h : s.h.st with
  | idle => simp [State.idleOutputs]
  | handleCurrent => cases s.setup.isIn <;> simp [State.idleOutputs]
  | unhandled => simp [State.idleOutputs]

/-- IDLE clears the flag (R142 to R144); outside IDLE it is set once the receive adapter is started (R151). -/
theorem handlerWrites_trig_iff (s : State) :
    (handlerWrites s).trig = true ↔
      s.h.st ≠ .idle ∧ (s.h.trig = true ∨ (cycleOutputs s).rxStart = true) := by
  rw [cycleOutputs_rxStart_iff]
  cases h : s.h.st with
  | idle => rw [handlerWrites_idle h]; split <;> simp
  | handleCurrent => cases hi : s.setup.isIn <;> cases ht : s.h.trig <;> simp [handlerWrites, h, hi, ht]
  | unhandled => simp [handlerWrites, h]

/-! ### H keeps its part of the invariant -/

/-- A dispatch takes an eligible request to the state of its class (R143, R144); a transfer keeps both. -/
theorem handlerWrites_serveInv {s : State} (hi : s.h.ServeInv s.cfg) : (handlerWrites s).ServeInv s.cfg := by
  intro hne
  by_cases hst : s.h.st = .idle
  · rw [handlerWrites_idle hst] at hne ⊢
    split at hne
    · rename_i harr
      rw [if_pos harr]
      obtain ⟨-, hel⟩ := Bool.and_eq_true_iff.1 harr
      refine ⟨hel, ?_⟩
      change (if s.isCur then HandlerState.handleCurrent else .unhandled) = .handleCurrent ↔ s.isCur = true
      cases s.isCur <;> simp
    · exact absurd hst hne
  · obtain ⟨hset, hkeep | hend⟩ := handlerWrites_of_ne_idle hst
    · rw [hset, hkeep]
      exact hi hst
    · exact absurd hend hne

/-- The flag set was set before, or is set now by SET_ARM, which has the length it asks for (R151). -/
theorem handlerWrites_trigInv {s : State} (ha : s.HandlerAdmitted) (hi : s.h.TrigInv s.cfg) :
    (handlerWrites s).TrigInv s.cfg := by
  intro hne htrig
  obtain ⟨hst, hcause⟩ := (handlerWrites_trig_iff s).1 htrig
  obtain ⟨hset, hkeep | hend⟩ := handlerWrites_of_ne_idle hst
  · rw [hset, hkeep]
    rcases hcause with hbefore | harm
    · exact hi hst hbefore
    · obtain ⟨hcur, hout, -, hlen⟩ := (cycleOutputs_rxStart_iff s).1 harm
      rw [← (ha hst).2]
      exact ⟨hcur, hout, beq_iff_eq.1 hlen⟩
  · exact absurd hend hne

/-- Settles O3: each machine keeps its own part of the invariant. -/
theorem stepKeepsTheInvariant : Obligations.StepKeepsTheInvariant := by
  intro s u hinv h
  obtain ⟨hT, hH, rfl⟩ := step_next_admitted h
  obtain ⟨hwf, hwidth, hidle, hrun, hserve, htrig, -⟩ := hinv
  refine ⟨hwf, txWrites_widthInv hwidth, fun hi => ?_, txWrites_runInv hT hrun, handlerWrites_serveInv hserve,
    handlerWrites_trigInv hH htrig, fun hi _ => ?_⟩
  · obtain ⟨hcur, hnxt, -⟩ := txWrites_of_idle hidle hi
    exact ⟨hcur, hnxt⟩
  · obtain ⟨-, -, hnp⟩ := txWrites_of_idle hidle hi
    exact hnp

/-! ### Laws of H's registers -/

/-- Settles O51: SET_COMMIT is the only write, and an armed transfer of the power domain has length 1. -/
theorem settingChangesOnlyByACommit : Obligations.SettingChangesOnlyByACommit := by
  intro s u h hne
  obtain ⟨-, hH, rfl⟩ := step_next_admitted h
  change (handlerWrites s).pds ≠ s.h.pds at hne
  change _ ∧ _ ∧ _ ∧ _ ∧ (handlerWrites s).pds = _ ∧ _
  rw [handlerWrites_pds] at hne ⊢
  split at hne
  · rename_i hcommit
    obtain ⟨hst, hout, hsel, hdone⟩ := hcommit
    refine ⟨hst, hout, hsel, hdone, if_pos ⟨hst, hout, hsel, hdone⟩, fun hinv htrig => ?_⟩
    obtain ⟨-, -, -, -, -, harmed, -⟩ := hinv
    have hbusy : s.h.st ≠ .idle := by rw [hst]; decide
    obtain ⟨-, -, hlen⟩ := harmed hbusy htrig
    rw [← (hH hbusy).2] at hlen
    exact hlen.trans (if_pos hsel)
  · exact absurd rfl hne

/-- Settles O53: the start needs the flag clear and sets it, and outside IDLE nothing clears it. -/
theorem receiveAdapterStartsOncePerTransfer : Obligations.ReceiveAdapterStartsOncePerTransfer := by
  intro s u h
  obtain ⟨-, -, rfl⟩ := step_next_admitted h
  refine ⟨fun hstart => ?_, fun hst htrig => ⟨?_, (handlerWrites_trig_iff s).2 ⟨hst, .inl htrig⟩⟩⟩
  · obtain ⟨hcur, -, hclear, -⟩ := (cycleOutputs_rxStart_iff s).1 hstart
    exact ⟨hclear, (handlerWrites_trig_iff s).2 ⟨by rw [hcur]; decide, .inr hstart⟩⟩
  · refine Bool.eq_false_iff.2 fun hstart => ?_
    obtain ⟨-, -, hclear, -⟩ := (cycleOutputs_rxStart_iff s).1 hstart
    exact absurd (htrig.symm.trans hclear) (by decide)

/-! ### Registers that nothing has written since reset -/

/-- With the same draws and levels of T, the outputs are a function of what H sees (R146 to R157). -/
theorem State.SameForH.cycleOutputs_eq {s s' : State} (v : s.SameForH s') (ho : s.idleOutputs = s'.idleOutputs) :
    cycleOutputs s = cycleOutputs s' := by
  have hlen : s.resLen = s'.resLen := by rw [State.resLen, State.resLen, v.setup, v.cfg]
  have hval : s.resVal = s'.resVal := by
    rw [State.resVal, State.resVal, State.pdsRead, State.pdsRead, v.selPD_eq, v.h]
  simp only [cycleOutputs, v.h, v.setup, v.dataReq, v.statusReq, v.rxReady, v.lenMatch_eq, hlen, hval, ho]

theorem TxRegs.AgreeOnWritten.refl (t : TxRegs) (n : Nat) : t.AgreeOnWritten t n :=
  ⟨rfl, rfl, rfl, rfl, fun _ => rfl, fun _ => rfl⟩

theorem HandlerRegs.AgreeOnWritten.refl (h : HandlerRegs) : h.AgreeOnWritten h :=
  ⟨rfl, rfl, rfl, fun _ => rfl⟩

namespace State.AgreeOnWritten

variable {s s' : State}

/-- T in RUN is the same in both states. -/
theorem sameForT (v : s.AgreeOnWritten s') (hr : s.t.st = .run) : s.SameForT s' := by
  obtain ⟨hcfg, hinp, -, -, -, ⟨-, -, -, -, -, hrun⟩, -⟩ := v
  exact ⟨hcfg.symm, (hrun hr).symm, by rw [hinp], by rw [hinp]⟩

/-- H outside IDLE is the same in both states. -/
theorem sameForH (v : s.AgreeOnWritten s') (hne : s.h.st ≠ .idle) : s.SameForH s' := by
  obtain ⟨hcfg, hinp, -, -, -, -, -, -, -, hbusy⟩ := v
  have hset : s.setup = s'.setup := by rw [State.setup, State.setup, hinp]
  exact ⟨hcfg.symm, (hbusy hne).symm, hset, by rw [hinp], by rw [hinp], by rw [hinp], by rw [hinp], by rw [hinp],
    by rw [hinp], by rw [hinp]⟩

theorem divider_eq (v : s.AgreeOnWritten s') : s'.divider = s.divider := by
  obtain ⟨hcfg, hinp, -⟩ := v
  rw [State.divider, State.divider, State.onDivBits, State.onDivBits, hcfg, hinp]

theorem width_eq (v : s.AgreeOnWritten s') : s'.width = s.width := by
  obtain ⟨-, hinp, -⟩ := v
  rw [State.width, State.width, hinp]

theorem setup_eq (v : s.AgreeOnWritten s') : s'.setup = s.setup := by
  obtain ⟨-, hinp, -⟩ := v
  rw [State.setup, State.setup, hinp]

/-- The checks of T read the latched configuration in RUN alone, those of H the latched fields outside IDLE. -/
theorem refusal_eq (v : s.AgreeOnWritten s') : s'.refusal = s.refusal := by
  have hT : s'.refusalT = s.refusalT := by
    have hd := v.divider_eq
    have hw := v.width_eq
    obtain ⟨-, -, -, -, -, ⟨hst, -, -, -, -, hrun⟩, -⟩ := v
    rw [State.refusalT, State.refusalT, hd, hw]
    cases hs : s.t.st with
    | idle => simp only [hst, hs, reduceCtorEq, false_and]
    | run => rw [hrun hs, hs]
  have hH : s'.refusalH = s.refusalH := by
    have hset := v.setup_eq
    obtain ⟨-, hinp, -, -, -, -, ⟨hst, -, -, hbusy⟩⟩ := v
    rw [State.refusalH, State.refusalH, hset, hinp]
    by_cases hs : s.h.st = .idle
    · simp only [hst, hs, ne_eq, not_true_eq_false, false_and]
    · rw [hbusy hs]
  rw [State.refusal, State.refusal, hT, hH]

/-- T's registers agree after the cycle: a start writes every register that IDLE left open (R103). -/
theorem txWrites_agree (v : s.AgreeOnWritten s') :
    (txWrites s).AgreeOnWritten (txWrites s') (s.cycle + 1) := by
  cases hs : s.t.st with
  | run =>
    rw [← (v.sameForT hs).txWrites_eq]
    exact TxRegs.AgreeOnWritten.refl _ _
  | idle =>
    have hd := v.divider_eq
    have hw := v.width_eq
    obtain ⟨-, -, -, -, -, ⟨hst, hclk, -, hnxt, -, -⟩, -⟩ := v
    have hz : s'.disabled = s.disabled := by rw [State.disabled, State.disabled, hd, hw]
    rw [txWrites_idle hs, txWrites_idle (hst.trans hs), hz, hd, hw]
    split
    · exact ⟨hst, hclk, rfl, rfl, fun _ => hnxt, fun hr => absurd (hs.symm.trans hr) (by decide)⟩
    · simp only [TxRegs.homeChannels, hclk, hnxt]
      exact TxRegs.AgreeOnWritten.refl _ _

/-- H's registers agree after the cycle: a dispatch latches the fields that IDLE left open (R143, R144). -/
theorem handlerWrites_agree (v : s.AgreeOnWritten s') : (handlerWrites s).AgreeOnWritten (handlerWrites s') := by
  by_cases hs : s.h.st = .idle
  · have hset := v.setup_eq
    obtain ⟨hcfg, hinp, -, -, -, -, ⟨hst, -, hpds, -⟩⟩ := v
    have hel : s'.eligible = s.eligible := by rw [State.eligible, State.eligible, hset]
    have hcur : s'.isCur = s.isCur := by rw [State.isCur, State.isCur, hset, hcfg]
    rw [handlerWrites_idle hs, handlerWrites_idle (hst.trans hs), hset, hel, hcur, hinp]
    split
    · simp only [hpds]
      exact HandlerRegs.AgreeOnWritten.refl _
    · exact ⟨hst, rfl, hpds, fun hne => absurd hs hne⟩
  · rw [← (v.sameForH hs).handlerWrites_eq]
    exact HandlerRegs.AgreeOnWritten.refl _

/-- T's levels read the counters in RUN alone, and `T.np` from cycle 1 on (R110 to R113). -/
theorem idleOutputs_eq (v : s.AgreeOnWritten s') : s.idleOutputs = s'.idleOutputs := by
  have hsd : s.sdLevel = s'.sdLevel := by
    cases hs : s.t.st with
    | run =>
      have hT := v.sameForT hs
      obtain ⟨-, hinp, -, -, hdraws, -⟩ := v
      exact hT.sdLevel_eq (by rw [hinp]) (by rw [hinp]) hdraws.symm
    | idle =>
      obtain ⟨-, -, -, -, hdraws, ⟨hst, -⟩, -⟩ := v
      have hrun : s.running = false := (not_running_iff s).2 hs
      have hrun' : s'.running = false := (not_running_iff s').2 (hst.trans hs)
      simp only [State.sdLevel, hrun, hrun', hdraws, Bool.false_and, Bool.false_eq_true, if_false]
  obtain ⟨-, -, -, hcycle, hdraws, ⟨-, hclk, hcur, hnxt, hnp, -⟩, -⟩ := v
  have hneed : s.needSampleLevel = s'.needSampleLevel := by
    rw [State.needSampleLevel, State.needSampleLevel, hcycle, hdraws, hcur, hnxt]
    split
    · rfl
    · rename_i h0
      rw [hnp h0]
  simp only [State.idleOutputs, State.bclkLevel, State.wsLevel, hsd, hneed, hclk, hnxt, hdraws]

theorem cycleOutputs_eq (v : s.AgreeOnWritten s') : cycleOutputs s' = cycleOutputs s := by
  by_cases hs : s.h.st = .idle
  · have ho := v.idleOutputs_eq
    obtain ⟨-, -, -, -, -, -, ⟨hst, -⟩⟩ := v
    simp only [cycleOutputs, hst, hs, ho]
  · exact ((v.sameForH hs).cycleOutputs_eq v.idleOutputs_eq).symm

/-- The next states agree again. -/
theorem nextState_agree (v : s.AgreeOnWritten s') : (nextState s).AgreeOnWritten (nextState s') := by
  have hT := v.txWrites_agree
  have hH := v.handlerWrites_agree
  obtain ⟨hcfg, hinp, hstim, hcycle, hdraws, -⟩ := v
  refine ⟨hcfg, ?_, ?_, ?_, ?_, hT, hH⟩ <;> simp only [nextState, hinp, hstim, hcycle, hdraws]

end State.AgreeOnWritten

/-- Settles O16: agreement decides the checks and the outputs, and each machine's writes keep it. -/
theorem unspecifiedResetRegistersReachNothing : Obligations.UnspecifiedResetRegistersReachNothing := by
  refine ⟨fun cfg cnt gDiv bp lb gWid np f => ?reset, fun s s' v => ⟨fun u h => ?next, fun r h => ?refused⟩⟩
  case reset =>
    exact ⟨rfl, rfl, rfl, rfl, rfl, ⟨rfl, rfl, rfl, rfl, fun h => absurd rfl h, fun h => by cases h⟩,
      ⟨rfl, rfl, rfl, fun h => absurd rfl h⟩⟩
  case next =>
    obtain ⟨hadm, rfl⟩ := (step_next_iff s u).1 h
    have hadm' : s'.refusal = none := v.refusal_eq.trans hadm
    exact ⟨nextState s', (step_next_iff _ _).2 ⟨hadm', rfl⟩, v.cycleOutputs_eq, v.nextState_agree⟩
  case refused =>
    rw [step_eq] at h ⊢
    rw [v.refusal_eq]
    cases hs : s.refusal with
    | none => rw [hs] at h; cases h
    | some q => rw [hs] at h; cases h; rfl

end Sys2Proof.Machine
end

section
/-! PROOFS. The request classes and the two directions of the encoding (spec/30_encoding.md R80 to R89). Each
class is said once as the SETUP fields it names, so that "the class of these fields" has one characterisation. A
row of the opcode table is matched bit by bit; a row of the SETUP keys is the conjunction of rows that look at one
field each. -/

namespace Sys2Proof

open Machine

/-! ### The conditions on SETUP fields (R85, R86) -/

theorem Setup.eligible_iff (f : Setup) : f.eligible = true ↔ f.typ = .classSpecific ∧ f.recipient = .interface := by
  simp only [Setup.eligible, Bool.and_eq_true, beq_iff_eq]

theorem Setup.isCur_iff (cfg : Config) (f : Setup) : f.isCur cfg = true ↔ f.request = cfg.curCode := by
  rw [Setup.isCur, beq_iff_eq]

theorem Setup.selPD_iff (cfg : Config) (f : Setup) :
    f.selPD cfg = true ↔ f.sel.indexLow = 0 ∧ f.sel.indexHigh = cfg.acIf ∧ f.sel.valueLow = 0 ∧
      f.sel.valueHigh = cfg.pdSelector := by
  simp only [Setup.selPD, Bool.and_eq_true, beq_iff_eq, and_assoc]

theorem Selector.isPowerDomain_iff (cfg : Config) (sel : Selector) :
    sel.isPowerDomain cfg = true ↔ sel = cfg.pdSelectorBytes := by
  obtain ⟨vh, vl, ih, il⟩ := sel
  simp only [Selector.isPowerDomain, Config.pdSelectorBytes, Bool.and_eq_true, beq_iff_eq, Selector.mk.injEq]
  tauto

theorem Selector.isPowerDomain_eq_false_iff (cfg : Config) (sel : Selector) :
    sel.isPowerDomain cfg = false ↔ sel ≠ cfg.pdSelectorBytes := by
  rw [← Bool.not_eq_true, Selector.isPowerDomain_iff]

/-- Settles O33: each value is its defining expression, and `==` is equality. -/
theorem selectorResolution : Obligations.SelectorResolution :=
  fun s => ⟨s.setup.selPD_iff s.cfg, rfl, rfl, beq_iff_eq⟩

/-! ### The SETUP fields of a class (R83) -/

/-- The SETUP fields that a request class names; none for a tick operation. -/
def Instr.setupFields (cfg : Config) : Instr → Option Setup
  | .getCurPd len => some (Setup.classRequest true cfg.curCode cfg.pdSelectorBytes len)
  | .setCurPd len => some (Setup.classRequest false cfg.curCode cfg.pdSelectorBytes len)
  | .getCurOther sel len => some (Setup.classRequest true cfg.curCode sel len)
  | .setCurOther sel len => some (Setup.classRequest false cfg.curCode sel len)
  | .classIfOther isIn request sel len => some (Setup.classRequest isIn request sel len)
  | .notEligible f => some f
  | _ => none

theorem exists_setupFields {i : Instr} (hi : isRequestClass i = true) (cfg : Config) :
    ∃ f, i.setupFields cfg = some f := by
  cases i <;> cases hi <;> exact ⟨_, rfl⟩

theorem encode_of_setupFields {cfg : Config} {i : Instr} {f : Setup} (h : i.setupFields cfg = some f) :
    encode cfg i = .setup f.key f.length := by
  cases i <;> cases h <;> rfl

/-- What is eligible is a class request to an interface. -/
theorem exists_classRequest_of_eligible {f : Setup} (h : f.eligible = true) :
    ∃ isIn request sel len, f = Setup.classRequest isIn request sel len := by
  obtain ⟨isIn, typ, recipient, request, sel, len⟩ := f
  obtain ⟨rfl, rfl⟩ := (Setup.eligible_iff _).1 h
  exact ⟨isIn, request, sel, len, rfl⟩

/-- Rows 1 to 5 of R83. -/
theorem requestClass_classRequest (cfg : Config) (isIn : Bool) (request : Byte) (sel : Selector) (len : Length) :
    (Setup.classRequest isIn request sel len).requestClass cfg =
      if request = cfg.curCode then
        if sel = cfg.pdSelectorBytes then if isIn then .getCurPd len else .setCurPd len
        else if isIn then .getCurOther sel len else .setCurOther sel len
      else .classIfOther isIn request sel len := by
  have hel : (Setup.classRequest isIn request sel len).eligible = true := rfl
  have hcur := (Setup.classRequest isIn request sel len).isCur_iff cfg
  have hsel : (Setup.classRequest isIn request sel len).selPD cfg = true ↔ sel = cfg.pdSelectorBytes :=
    sel.isPowerDomain_iff cfg
  unfold Setup.requestClass
  simp only [hel, hcur, hsel, Bool.and_eq_true, Bool.and_true]
  by_cases hr : request = cfg.curCode <;> by_cases hs : sel = cfg.pdSelectorBytes <;> cases isIn <;>
    simp [hr, hs, Setup.classRequest]

/-- Row 6 of R83. -/
theorem requestClass_of_not_eligible {f : Setup} (h : f.eligible = false) (cfg : Config) :
    f.requestClass cfg = .notEligible f := by
  simp [Setup.requestClass, h]

/-- The class of SETUP fields is well formed and keeps every field. -/
theorem requestClass_names (cfg : Config) (f : Setup) :
    (f.requestClass cfg).wf cfg = true ∧ (f.requestClass cfg).setupFields cfg = some f := by
  cases hel : f.eligible with
  | false =>
    rw [requestClass_of_not_eligible hel]
    exact ⟨(Bool.not_eq_true' _).mpr hel, rfl⟩
  | true =>
    obtain ⟨isIn, request, sel, len, rfl⟩ := exists_classRequest_of_eligible hel
    rw [requestClass_classRequest]
    split_ifs <;> simp_all [Instr.wf, Instr.setupFields, Selector.isPowerDomain_eq_false_iff]

/-- The class of the fields of a well-formed class is that class. -/
theorem requestClass_of_setupFields {cfg : Config} {i : Instr} {f : Setup} (hwf : i.wf cfg = true)
    (h : i.setupFields cfg = some f) : f.requestClass cfg = i := by
  cases i with
  | getCurPd len | setCurPd len =>
    obtain rfl := Option.some.inj h
    simp [requestClass_classRequest]
  | getCurOther sel len | setCurOther sel len =>
    obtain rfl := Option.some.inj h
    have hsel : sel ≠ cfg.pdSelectorBytes :=
      (sel.isPowerDomain_eq_false_iff cfg).1 ((Bool.not_eq_true' _).mp hwf)
    simp [requestClass_classRequest, hsel]
  | classIfOther isIn request sel len =>
    obtain rfl := Option.some.inj h
    rw [requestClass_classRequest, if_neg (bne_iff_ne.1 hwf)]
  | notEligible g =>
    obtain rfl := Option.some.inj h
    exact requestClass_of_not_eligible ((Bool.not_eq_true' _).mp hwf) cfg
  | _ => cases h

/-- The class of SETUP fields (R83) is the well-formed class that names them. -/
theorem requestClass_eq_iff (cfg : Config) (f : Setup) (i : Instr) :
    f.requestClass cfg = i ↔ i.wf cfg = true ∧ i.setupFields cfg = some f := by
  constructor
  · rintro rfl
    exact requestClass_names cfg f
  · exact fun ⟨hwf, h⟩ => requestClass_of_setupFields hwf h

/-! ### A key gives its operation back -/

theorem decode_encode_transmitter {i : Instr} (hi : isTransmitterOp i = true) (cfg : Config) :
    decode cfg (encode cfg i) = .ok [.npUpdate, i] := by
  cases i <;> cases hi <;> rfl

theorem decode_encode_handler {i : Instr} (hi : isHandlerOp i = true) (cfg : Config) :
    ∃ l, decode cfg (encode cfg i) = .ok l ∧ l.getLast? = some i := by
  cases i <;> cases hi <;> exact ⟨_, rfl, rfl⟩

theorem decode_encode_request {cfg : Config} {i : Instr} (hi : isRequestClass i = true) (hwf : i.wf cfg = true) :
    decode cfg (encode cfg i) = .ok [i] := by
  obtain ⟨f, hf⟩ := exists_setupFields hi cfg
  rw [encode_of_setupFields hf, decode, Setup.ofKey_key, requestClass_of_setupFields hwf hf]

/-- NP_UPDATE, an operation of T's or H's table, or a request class: there is no other operation. -/
theorem Instr.kind_cases (i : Instr) :
    i = .npUpdate ∨ isTransmitterOp i = true ∨ isHandlerOp i = true ∨ isRequestClass i = true := by
  cases i <;> simp [isTransmitterOp, isHandlerOp, isRequestClass]

/-- A SETUP key selects one operation. -/
theorem eq_singleton_of_decode_setup {cfg : Config} {k : BitVec 48} {len : Length} {l : List Instr} {i : Instr}
    (h : decode cfg (.setup k len) = .ok l) (hi : i ∈ l) : l = [i] := by
  obtain rfl : [(Setup.ofKey k len).requestClass cfg] = l := Except.ok.inj h
  rw [List.mem_singleton.1 hi]

/-- Every operation but NP_UPDATE is the last that its own key selects. -/
theorem exists_getLast?_decode_encode {cfg : Config} {i : Instr} (hwf : i.wf cfg = true) (hnp : i ≠ .npUpdate) :
    ∃ l, decode cfg (encode cfg i) = .ok l ∧ l.getLast? = some i := by
  rcases i.kind_cases with hi | hi | hi | hi
  · exact absurd hi hnp
  · exact ⟨_, decode_encode_transmitter hi cfg, rfl⟩
  · exact decode_encode_handler hi cfg
  · exact ⟨_, decode_encode_request hi hwf, rfl⟩

/-- Settles O57: by the kind of the operation; NP_UPDATE shares its key with TX_START. -/
theorem decodeInvertsEncode : Obligations.DecodeInvertsEncode := by
  intro cfg i hwf
  obtain ⟨l, hd, hmem, hlast⟩ :
      ∃ l, decode cfg (encode cfg i) = .ok l ∧ i ∈ l ∧ (i ≠ .npUpdate → l.getLast? = some i) := by
    by_cases hnp : i = .npUpdate
    · exact ⟨[.npUpdate, .txStart], by rw [hnp]; rfl, by simp [hnp], fun h => absurd hnp h⟩
    · obtain ⟨l, hd, hlast⟩ := exists_getLast?_decode_encode hwf hnp
      exact ⟨l, hd, List.mem_of_getLast? hlast, fun _ => hlast⟩
  exact ⟨l, hd, hmem, hlast, fun ⟨k, len, he⟩ => eq_singleton_of_decode_setup (he ▸ hd) hmem⟩

/-! ### The dispatch of a class (R83, R142 to R144, R160) -/

/-- What an IDLE handler does with the presented fields of a class. -/
def classResponse : Instr → State → State
  | .classIfOther _ _ _ _, s => s.dispatch .unhandled
  | .notEligible _, s => s.writeTrig false
  | _, s => s.dispatch .handleCurrent

theorem exec_eq_present {s : State} {i : Instr} {f : Setup} (h : i.setupFields s.cfg = some f) :
    exec i s = s.present f (classResponse i) := by
  cases i <;> cases h <;> rfl

theorem exec_class_of_idle {s : State} {i : Instr} {f : Setup} (h : i.setupFields s.cfg = some f)
    (hidle : s.h.st = .idle) :
    exec i s = .next (classResponse i { s with inp := { s.inp with setup := f, setupRcv := true } }) :=
  (exec_eq_present h).trans ((s.present_next_iff f _ _).2 ⟨hidle, rfl⟩)

theorem exec_class_of_ne_idle {s : State} {i : Instr} {f : Setup} (h : i.setupFields s.cfg = some f)
    (hidle : s.h.st ≠ .idle) : exec i s = .refused .setupMidTransfer :=
  (exec_eq_present h).trans (if_neg hidle)

/-- A class is among the operations of a cycle when an IDLE handler is presented the fields it names. -/
theorem mem_operations_of_setupFields {s : State} {i : Instr} {f : Setup} (h : i.setupFields s.cfg = some f) :
    i ∈ s.operations ↔ s.h.st = .idle ∧ s.inp.setupRcv = true ∧ i.wf s.cfg = true ∧ s.inp.setup = f := by
  have hi : isRequestClass i = true := by cases i <;> cases h <;> rfl
  rw [mem_operations_request hi, requestClass_eq_iff, h, Option.some_inj, @eq_comm _ f]
  rfl

/-- Settles O31: what a class does and when it is fetched both follow from the SETUP fields it names. -/
theorem curRequestsDispatchToHandleCurrent : Obligations.CurRequestsDispatchToHandleCurrent := by
  intro s sel len
  refine ⟨fun h => ⟨?_, ?_, ?_, ?_⟩, fun h => ⟨?_, ?_, ?_, ?_⟩, ?_, ?_, ?_, ?_⟩
  iterate 4 exact exec_class_of_idle rfl h
  iterate 4 exact exec_class_of_ne_idle rfl h
  iterate 2 exact (mem_operations_of_setupFields rfl).trans (by simp only [Instr.wf, true_and]; rfl)
  iterate 2
    exact (mem_operations_of_setupFields rfl).trans
      (by simp only [Instr.wf, Bool.not_eq_true', Selector.isPowerDomain_eq_false_iff]; rfl)

/-- Settles O32: as for the CUR classes; what is not eligible is no request to H. -/
theorem otherRequestsGoUnhandledOrAreIgnored : Obligations.OtherRequestsGoUnhandledOrAreIgnored := by
  intro s isIn request sel len g
  have hreq : (request != s.cfg.curCode) = true ↔ request ≠ s.cfg.curCode := bne_iff_ne
  have hel : (!g.eligible) = true ↔ g.typ ≠ .classSpecific ∨ g.recipient ≠ .interface := by
    rw [Bool.not_eq_true', ← Bool.not_eq_true, Setup.eligible_iff, not_and_or]
  refine ⟨fun h => ⟨?_, ?_⟩, fun h => ⟨?_, ?_⟩, ?_, ?_⟩
  iterate 2 exact exec_class_of_idle rfl h
  iterate 2 exact exec_class_of_ne_idle rfl h
  · exact (mem_operations_of_setupFields rfl).trans (by simp only [Instr.wf, hreq]; rfl)
  · exact (mem_operations_of_setupFields rfl).trans
      (and_congr_right fun _ => and_congr_right fun _ => and_congr_left fun _ => hel)

/-- Settles O60: the decoder runs on each word. -/
theorem wordsOfTheTableDecode : Obligations.WordsOfTheTableDecode := by
  refine ⟨?_, ?_, ?_, ?_, ?_, ?_, ?_⟩ <;> decide

/-! ### What it is to match a row -/

/-- A key matches a row when its bits under the mask are the pattern's. -/
theorem Row.fits_iff {w : Nat} (r : Row) (k : BitVec w) :
    r.fits k = true ↔ ∀ i, (k.getLsbD i && r.mask.testBit i) = r.pat.testBit i := by
  simp only [Row.fits, beq_iff_eq, Nat.eq_iff_testBit_eq, Nat.testBit_and, BitVec.testBit_toNat]

/-- Only the bits of the key count, if the pattern has no bit beyond them. -/
theorem Row.fits_iff_forall_lt {w : Nat} {r : Row} (hp : r.pat < 2 ^ w) (k : BitVec w) :
    r.fits k = true ↔ ∀ i < w, (k.getLsbD i && r.mask.testBit i) = r.pat.testBit i := by
  rw [Row.fits_iff]
  refine ⟨fun h i _ => h i, fun h i => ?_⟩
  rcases Nat.lt_or_ge i w with hi | hi
  · exact h i hi
  · have hpat : r.pat.testBit i = false :=
      Nat.testBit_lt_two_pow (hp.trans_le (Nat.pow_le_pow_right (by decide) hi))
    rw [BitVec.getLsbD_of_ge k i hi, hpat, Bool.false_and]

/-! ### The event keys (R87 to R89) -/

/-- The bits of a key from the leftmost on, as the patterns of the table are written. -/
theorem forall_lt_succ_leftmost {p : Nat → Prop} {n : Nat} : (∀ i < n + 1, p i) ↔ p n ∧ ∀ i < n, p i :=
  Nat.forall_lt_succ_right.trans and_comm

/-- A key of T matches the pattern of the operation it selects and no other (R87). -/
theorem fits_transmitter_iff {i : Instr} (hi : isTransmitterOp i = true) {r : Row} (hr : i.row = some r)
    (k : BitVec 6) : r.fits k = true ↔ (TxKey.ofBits k).operation = i := by
  rw [operation_iff]
  cases i <;> cases hi <;> cases hr <;> rw [Row.fits_iff_forall_lt (by decide)] <;>
    simp only [forall_lt_succ_leftmost, Nat.not_lt_zero, false_imp_iff, implies_true, and_true] <;>
    simp [Nat.testBit, TxKey.ofBits]

/-- An operation of H with a pattern fires exactly when the key matches it (R88). -/
theorem fits_handler_iff {i : Instr} (hi : isHandlerOp i = true) {r : Row} (hr : i.row = some r)
    (k : BitVec 13) : r.fits k = true ↔ i ∈ (HandlerKey.ofBits k).operations := by
  rw [mem_handler_iff, mem_allRows]
  cases i <;> cases hi <;> cases hr <;> rw [Row.fits_iff_forall_lt (by decide)] <;>
    simp only [forall_lt_succ_leftmost, Nat.not_lt_zero, false_imp_iff, implies_true, and_true] <;>
    simp [Nat.testBit, HandlerKey.ofBits, HandlerKey.idle, HandlerKey.current, HandlerKey.unhandled, and_assoc]

theorem exists_row_transmitter {i : Instr} (hi : isTransmitterOp i = true) : ∃ r, i.row = some r := by
  cases i <;> cases hi <;> exact ⟨_, rfl⟩

/-- A handler key with the unreachable state code is rejected (R89). -/
theorem decode_handler_of_unreachable (cfg : Config) {k : BitVec 13}
    (h : k.getLsbD 12 = true ∧ k.getLsbD 11 = true) :
    decode cfg (.handler k) = .error .unreachableHandlerState := by
  simp [decode, HandlerKey.decode, HandlerKey.ofBits, h]

theorem decode_handler_of_legal (cfg : Config) {k : BitVec 13}
    (h : ¬(k.getLsbD 12 = true ∧ k.getLsbD 11 = true)) :
    decode cfg (.handler k) = .ok (HandlerKey.ofBits k).operations := by
  rw [← Bool.and_eq_true] at h
  exact if_neg h

/-- Settles O59: matching a row is selecting its operation, in either space. -/
theorem eventKeysSelectTheMatchingRows : Obligations.EventKeysSelectTheMatchingRows := by
  refine ⟨fun cfg k => ?tx, fun cfg k => ⟨decode_handler_of_unreachable cfg, fun hk => ?handler⟩⟩
  case tx =>
    have hop := transmitter_kind (TxKey.ofBits k)
    obtain ⟨r, hr⟩ := exists_row_transmitter hop
    refine ⟨_, r, rfl, hr, (fits_transmitter_iff hop hr k).2 rfl, fun j hj => ?_⟩
    have hjop : isTransmitterOp j = true := by revert j; decide
    exact fun r' hr' hfits => ((fits_transmitter_iff hjop hr' k).1 hfits).symm
  case handler =>
    refine ⟨_, decode_handler_of_legal cfg hk, fun i hi => ?_⟩
    have hop : isHandlerOp i = true := by revert i; decide
    exact fun r hr => (fits_handler_iff hop hr k).symm

/-! ### Rows of the SETUP keys, field by field (R82, R83) -/

/-- The row of the keys whose `n` bits from bit `start` on are `c`. -/
def Row.field (start : Nat) {n : Nat} (c : BitVec n) : Row where
  mask := (2 ^ n - 1) <<< start
  pat := c.toNat <<< start

/-- The row of the keys that match both. -/
def Row.and (r r' : Row) : Row where
  mask := r.mask ||| r'.mask
  pat := r.pat ||| r'.pat

theorem Row.fits_field {w n : Nat} (start : Nat) (c : BitVec n) (k : BitVec w) :
    (Row.field start c).fits k = (k.extractLsb' start n == c) := by
  rw [Bool.eq_iff_iff, Row.fits_iff, beq_iff_eq]
  simp only [Row.field, Nat.testBit_shiftLeft, Nat.testBit_two_pow_sub_one, BitVec.testBit_toNat]
  constructor
  · intro h
    ext i hi
    simpa [hi] using h (start + i)
  · rintro rfl i
    by_cases hi : start ≤ i
    · by_cases hn : i - start < n <;> simp [hi, hn]
    · simp [hi]

/-- The two rows look at different bits, and neither pattern has a bit outside its mask. -/
abbrev Row.Apart (r r' : Row) : Prop :=
  r.pat &&& r.mask = r.pat ∧ r'.pat &&& r'.mask = r'.pat ∧ r.mask &&& r'.mask = 0

theorem Row.fits_and {w : Nat} {r r' : Row} (h : r.Apart r') (k : BitVec w) :
    (r.and r').fits k = (r.fits k && r'.fits k) := by
  obtain ⟨hr, hr', hd⟩ := h
  rw [Bool.eq_iff_iff, Bool.and_eq_true]
  simp only [Row.fits_iff, Row.and, ← forall_and, Nat.testBit_or]
  refine forall_congr' fun i => ?_
  have hri := congrArg (·.testBit i) hr
  have hri' := congrArg (·.testBit i) hr'
  have hdi := congrArg (·.testBit i) hd
  simp only [Nat.testBit_and, Nat.zero_testBit] at hri hri' hdi
  revert hri hri' hdi
  generalize k.getLsbD i = x, r.mask.testBit i = m, r'.mask.testBit i = m', r.pat.testBit i = p,
    r'.pat.testBit i = p'
  revert x m m' p p'
  decide

/-! ### The six rows of R83, for the parameters of the opcode table -/

/-- Row 5: `type` CLASS and `recipient` INTERFACE, by their codes in R81. -/
def Row.eligible : Row := (Row.field 45 1#2).and (Row.field 40 1#5)

/-- Rows 3 and 4: an eligible request with the code CUR in one direction. -/
def Row.cur (isIn : Bool) : Row :=
  ((Row.field 47 (BitVec.ofBool isIn)).and Row.eligible).and (Row.field 32 Config.vectors.curCode)

/-- The selector of the power-domain control (R86). -/
def Row.powerDomain : Row :=
  (((Row.field 0 0#8).and (Row.field 8 Config.vectors.acIf)).and (Row.field 16 0#8)).and
    (Row.field 24 Config.vectors.pdSelector)

theorem SetupType.ofCode_beq_classSpecific (c : BitVec 2) :
    (SetupType.ofCode c == .classSpecific) = (c == 1#2) := by
  revert c; decide

theorem Recipient.ofCode_beq_interface (c : BitVec 5) : (Recipient.ofCode c == .interface) = (c == 1#5) := by
  revert c; decide

theorem extractLsb'_one_beq_ofBool {w : Nat} (k : BitVec w) (start : Nat) (b : Bool) :
    (k.extractLsb' start 1 == BitVec.ofBool b) = (k.getLsbD start == b) := by
  rw [Bool.eq_iff_iff, beq_iff_eq, beq_iff_eq]
  simp [BitVec.eq_of_getLsbD_eq_iff]

section

variable (k : BitVec 48) (len : Length)

theorem fits_eligible : Row.eligible.fits k = (Setup.ofKey k len).eligible := by
  rw [Row.eligible, Row.fits_and (by decide), Row.fits_field, Row.fits_field,
    ← SetupType.ofCode_beq_classSpecific, ← Recipient.ofCode_beq_interface]
  rfl

theorem fits_cur (isIn : Bool) :
    (Row.cur isIn).fits k = ((Setup.ofKey k len).isIn == isIn && (Setup.ofKey k len).eligible &&
      (Setup.ofKey k len).isCur Config.vectors) := by
  have hdir : (Row.field 47 (BitVec.ofBool isIn)).Apart Row.eligible := by cases isIn <;> decide
  have hcode : ((Row.field 47 (BitVec.ofBool isIn)).and Row.eligible).Apart
      (Row.field 32 Config.vectors.curCode) := by cases isIn <;> decide
  rw [Row.cur, Row.fits_and hcode, Row.fits_and hdir, Row.fits_field, Row.fits_field,
    extractLsb'_one_beq_ofBool, fits_eligible k len]
  rfl

theorem fits_powerDomain : Row.powerDomain.fits k = (Setup.ofKey k len).selPD Config.vectors := by
  rw [Row.powerDomain, Row.fits_and (by decide), Row.fits_and (by decide), Row.fits_and (by decide),
    Row.fits_field, Row.fits_field, Row.fits_field, Row.fits_field]
  rfl

/-- Rows 1 and 2: a CUR request for the power domain. -/
theorem fits_cur_powerDomain (isIn : Bool) :
    ((Row.cur isIn).and Row.powerDomain).fits k = ((Setup.ofKey k len).isIn == isIn &&
      (Setup.ofKey k len).eligible && (Setup.ofKey k len).isCur Config.vectors &&
        (Setup.ofKey k len).selPD Config.vectors) := by
  have hapart : (Row.cur isIn).Apart Row.powerDomain := by cases isIn <;> decide
  rw [Row.fits_and hapart, fits_cur k len, fits_powerDomain k len]

/-- The row of a class is the first of the six that the key matches: the conditions of the rows, in the table's
order, are those that `requestClass` tests. -/
theorem row_requestClass :
    ((Setup.ofKey k len).requestClass Config.vectors).row =
      [(Row.cur true).and Row.powerDomain, (Row.cur false).and Row.powerDomain, Row.cur true, Row.cur false,
        Row.eligible, ⟨0, 0⟩].find? (·.fits k) := by
  have hany : (Row.mk 0 0).fits k = true := beq_iff_eq.2 (Nat.and_zero _)
  simp only [List.find?_cons, fits_cur_powerDomain k len, fits_cur k len, fits_eligible k len, hany,
    Setup.requestClass]
  cases (Setup.ofKey k len).isIn <;> cases (Setup.ofKey k len).eligible <;>
    cases (Setup.ofKey k len).isCur Config.vectors <;> cases (Setup.ofKey k len).selPD Config.vectors <;> rfl

end

/-- Settles O58: the table's six numbers are those six rows. -/
theorem requestClassIsTheFirstMatchingRow : Obligations.RequestClassIsTheFirstMatchingRow :=
  fun k len => ⟨_, rfl, row_requestClass k len⟩

end Sys2Proof
end

section
/-! PROOFS. The operations of the transmitter, one by one (spec/41_audio_transmitter.md R100 to R109), the codes of
the refused cycles (spec/60_exceptions.md R207), and a step as the execution of the decoded keys. The keys of T's
operations are said once on the state; what T refuses is said once as a value of `State.refusalT`. -/

namespace Sys2Proof.Machine

/-! ### The codes of the refusals (R114, R115, R160, R161) -/

namespace State

variable {s : State}

theorem refusalT_of_reconfig (hr : s.t.st = .run) (hc : s.divider ≠ s.t.gDiv ∨ s.width ≠ s.t.gWid) :
    s.refusalT = some .reconfigInRun :=
  if_pos ⟨hr, hc⟩

theorem refusalT_of_wide (hheld : s.t.st = .run → s.divider = s.t.gDiv ∧ s.width = s.t.gWid)
    (hw : 23 < s.width.toNat) : s.refusalT = some .widthRange := by
  have hconst : ¬(s.t.st = .run ∧ (s.divider ≠ s.t.gDiv ∨ s.width ≠ s.t.gWid)) := by
    rintro ⟨hr, hd | hg⟩
    · exact hd (hheld hr).1
    · exact hg (hheld hr).2
  rw [refusalT, if_neg hconst, if_pos hw]

theorem refusalH_of_setup (hst : s.h.st ≠ .idle) (hr : s.inp.setupRcv = true) :
    s.refusalH = some .setupMidTransfer :=
  if_pos ⟨hst, hr⟩

theorem refusalH_of_fields (hst : s.h.st ≠ .idle) (hr : s.inp.setupRcv = false) (hf : s.setup ≠ s.h.gSetup) :
    s.refusalH = some .setupFieldsChanged := by
  have hno : ¬(s.h.st ≠ .idle ∧ s.inp.setupRcv = true) := fun h => Bool.false_ne_true (hr.symm.trans h.2)
  rw [refusalH, if_neg hno, if_pos ⟨hst, hf⟩]

theorem TxAdmitted.refusalT_eq (ha : s.TxAdmitted) : s.refusalT = none := (s.refusalT_none_iff).2 ha

/-- An operation of T that T admits writes its registers. -/
theorem TxAdmitted.tickT_eq (ha : s.TxAdmitted) (f : TxRegs → TxRegs) : s.tickT f = .next (s.mapT f) :=
  tickT_admitted ha.refusalT_eq f

/-- An operation of T that T refuses is refused with T's code. -/
theorem tickT_refused {r : Refusal} (h : s.refusalT = some r) (f : TxRegs → TxRegs) : s.tickT f = .refused r := by
  rw [tickT, h]

end State

/-- T's code is named before H's (log 9). -/
theorem step_of_refusalT {s : State} {r : Refusal} (h : s.refusalT = some r) : step s = .refused r := by
  simp only [step_eq, State.refusal, h]

theorem step_of_refusalH {s : State} {r : Refusal} (ha : s.TxAdmitted) (h : s.refusalH = some r) :
    step s = .refused r := by
  simp only [step_eq, State.refusal, ha.refusalT_eq, h]

/-- Settles O7: the first check that fires gives the code. -/
theorem refusedCyclesNameTheBrokenDuty : Obligations.RefusedCyclesNameTheBrokenDuty := fun _ =>
  ⟨fun hr hc => step_of_refusalT (State.refusalT_of_reconfig hr hc),
    fun hheld hw => step_of_refusalT (State.refusalT_of_wide hheld hw),
    fun ha hst hr => step_of_refusalH ha (State.refusalH_of_setup hst hr),
    fun ha hst hr hf => step_of_refusalH ha (State.refusalH_of_fields hst hr hf)⟩

/-! ### A step runs the decoded operations -/

theorem runOps_cons_next_iff (i : Instr) (l : List Instr) (s v : State) :
    runOps (i :: l) s = .next v ↔ ∃ u, exec i s = .next u ∧ runOps l u = .next v := by
  cases h : exec i s <;> simp [runOps, h]

theorem runCycle_next_iff (s u : State) :
    runCycle s = .next u ↔ ∃ w, runOps s.operations s.beginCycle = .next w ∧ u = w.endCycle := by
  unfold runCycle
  cases runOps s.operations s.beginCycle <;> simp [eq_comm]

theorem decode_txKey (s : State) : decode s.cfg (.tx s.txKey.toBits) = .ok [.npUpdate, s.txKey.operation] := by
  simp only [decode, TxKey.ofBits_toBits]

theorem decode_handlerKey (s : State) : decode s.cfg (.handler s.handlerKey.toBits) = .ok s.handlerKey.operations := by
  simp only [decode, HandlerKey.ofBits_toBits, HandlerKey.decode, handlerKey_legal, Bool.false_eq_true, if_false]

/-- The SETUP key is decoded exactly in a cycle in which a request arrives. -/
theorem decode_arrivals (s : State) :
    if s.h.st = .idle ∧ s.inp.setupRcv = true
      then decode s.cfg (.setup s.inp.setup.key s.inp.setup.length) = .ok (arrivals s) else arrivals s = [] := by
  have harr : s.setupArrives = true ↔ s.h.st = .idle ∧ s.inp.setupRcv = true := by simp [State.setupArrives]
  split
  · rename_i h
    rw [arrivals, if_pos (harr.2 h), decode, Setup.ofKey_key]
    rfl
  · rename_i h
    rw [arrivals, if_neg (mt harr.1 h)]

/-- Settles O5: an admitted step answers, and its run of the operations comes apart at the two of T's key. -/
theorem stepRunsTheDecodedOperations : Obligations.StepRunsTheDecodedOperations := by
  intro s hT hH
  obtain ⟨u, hu⟩ := (stepAnswersExactlyWhenAdmitted s).2 ⟨hT, hH⟩
  have hadm : s.refusal = none := ((step_next_iff s u).1 hu).1
  have hcycle : runCycle s = .next u := (runCycle_admitted hadm).trans (congrArg _ ((step_next_iff s u).1 hu).2.symm)
  obtain ⟨w, hw, rfl⟩ := (runCycle_next_iff s u).1 hcycle
  rw [operations_eq, runOps_cons_next_iff] at hw
  obtain ⟨a, ha, hw⟩ := hw
  obtain ⟨b, hb, hw⟩ := (runOps_cons_next_iff _ _ _ _).1 hw
  exact ⟨s.txKey.operation, arrivals s, s.handlerKey.operations, a, b, w, decode_txKey s, decode_arrivals s,
    decode_handlerKey s, ha, hb, hw, hu⟩

/-! ### The operations of T -/

theorem State.disabled_iff (s : State) : s.disabled = true ↔ s.divider = 0 ∨ s.width = 0 := by
  simp only [State.disabled, Bool.or_eq_true, beq_iff_eq]

theorem State.not_disabled_iff (s : State) : s.disabled = false ↔ s.divider ≠ 0 ∧ s.width ≠ 0 := by
  rw [← Bool.not_eq_true, s.disabled_iff, not_or]

/-- When each of the seven operations of T is among the operations of a cycle (R87, R102 to R109). -/
theorem mem_operations_transmitter_iff {i : Instr} (hi : isTransmitterOp i = true) (s : State) :
    i ∈ s.operations ↔ match i with
      | .txIdleHold => s.t.st = .idle ∧ (s.divider = 0 ∨ s.width = 0)
      | .txStart => s.t.st = .idle ∧ s.divider ≠ 0 ∧ s.width ≠ 0
      | .txCount => s.t.st = .run ∧ s.t.cnt ≠ s.divider
      | .txToggleInactive => s.t.st = .run ∧ s.t.cnt = s.divider ∧ (!s.t.clk) ≠ activeLevel s.cfg
      | .txWrap => s.t.st = .run ∧ s.t.cnt = s.divider ∧ (!s.t.clk) = activeLevel s.cfg ∧ s.t.bp = s.width
      | .txAdvance =>
        s.t.st = .run ∧ s.t.cnt = s.divider ∧ (!s.t.clk) = activeLevel s.cfg ∧ s.t.bp ≠ s.width ∧ s.t.bp ≠ s.t.lb
      | .txAdvanceFlip =>
        s.t.st = .run ∧ s.t.cnt = s.divider ∧ (!s.t.clk) = activeLevel s.cfg ∧ s.t.bp ≠ s.width ∧ s.t.bp = s.t.lb
      | _ => False := by
  rw [mem_operations_transmitter hi, operation_iff]
  cases i <;>
    simp only [State.txKey, running_iff, not_running_iff, s.disabled_iff, s.not_disabled_iff, State.countDone,
      State.towardActive, State.atWrap, State.atLastBit, beq_iff_eq, beq_eq_false_iff_ne]

/-- Settles O17: the first operation of every cycle, and no later one writes `T.np`. -/
theorem npUpdateCopiesThePendingChannel : Obligations.NpUpdateCopiesThePendingChannel := by
  refine fun s => ⟨?_, rfl, fun u h => ?_⟩
  · rw [operations_eq]
    exact List.mem_cons_self
  · obtain ⟨-, -, rfl⟩ := step_next_admitted h
    exact txWrites_np s

/-- In IDLE no configuration is latched, and the width alone can be refused. -/
theorem State.refusalT_of_idle_wide {s : State} (hst : s.t.st = .idle) (hw : 23 < s.width.toNat) :
    s.refusalT = some .widthRange :=
  State.refusalT_of_wide (fun hr => absurd (hst.symm.trans hr) (by decide)) hw

/-- Settles O18: the key names IDLE and Z; `homeChannels` is the effect; only the width can be refused in IDLE. -/
theorem txIdleHoldKeepsStreamingWithheld : Obligations.TxIdleHoldKeepsStreamingWithheld := fun s =>
  ⟨mem_operations_transmitter_iff rfl s, fun ha => ha.tickT_eq _,
    fun hst hw => State.tickT_refused (State.refusalT_of_idle_wide hst hw) _⟩

/-- Settles O19: the two ports unfold to their inputs; the key is IDLE without Z. -/
theorem txStartLoadsTheCountersAndRuns : Obligations.TxStartLoadsTheCountersAndRuns := fun s =>
  ⟨rfl, rfl, mem_operations_transmitter_iff rfl s, fun ha => ha.tickT_eq _,
    fun hst hw => State.tickT_refused (State.refusalT_of_idle_wide hst hw) _⟩

/-- Settles O20: the key is RUN without E; `T.cnt + 1` is taken on DIV_WIDTH bits. -/
theorem txCountIncrementsTheCounter : Obligations.TxCountIncrementsTheCounter := fun s =>
  ⟨mem_operations_transmitter_iff rfl s, fun ha => ha.tickT_eq _,
    fun hr hc => State.tickT_refused (State.refusalT_of_reconfig hr hc) _⟩

/-- Settles O21: the key is RUN, E, and the new level not the active one; the effect is `toggle`. -/
theorem txToggleInactiveTogglesTheClock : Obligations.TxToggleInactiveTogglesTheClock := fun s =>
  ⟨mem_operations_transmitter_iff rfl s, fun ha => ha.tickT_eq _,
    fun hr hc => State.tickT_refused (State.refusalT_of_reconfig hr hc) _⟩

/-- Settles O22: the key is an active toggle at the wrap marker; the effect is `activeEdge` with the position 0. -/
theorem txWrapStartsANewWord : Obligations.TxWrapStartsANewWord := fun s =>
  ⟨fun h => by rw [activeLevel, h], fun h => by rw [activeLevel, h], mem_operations_transmitter_iff rfl s,
    fun ha => ha.tickT_eq _, fun hr hc => State.tickT_refused (State.refusalT_of_reconfig hr hc) _⟩

/-- Settles O23: the key is an active toggle at neither the wrap marker nor the last bit index. -/
theorem txAdvanceMovesToTheNextBit : Obligations.TxAdvanceMovesToTheNextBit := fun s =>
  ⟨mem_operations_transmitter_iff rfl s, fun ha => ha.tickT_eq _,
    fun hr hc => State.tickT_refused (State.refusalT_of_reconfig hr hc) _⟩

theorem Channel.flip_eq (c : Channel) : c.flip = if c = .left then .right else .left := by
  cases c <;> rfl

/-- Settles O24: the key is an active toggle at the last bit index; `T.cur` takes the channel of before the flip. -/
theorem txAdvanceFlipFlipsThePendingChannel : Obligations.TxAdvanceFlipFlipsThePendingChannel := by
  refine fun s => ⟨mem_operations_transmitter_iff rfl s, fun ha => ?_,
    fun hr hc => State.tickT_refused (State.refusalT_of_reconfig hr hc) _⟩
  rw [← Channel.flip_eq]
  exact ha.tickT_eq _

end Sys2Proof.Machine
end

section
/-! PROOFS. The levels of the transmitter (spec/41_audio_transmitter.md R110 to R113, R123) and its schedules
(R116 to R121). A run in RUN is counted from a state: the ticks make toggles, the toggles active edges, the active
edges words. Each count is a division with remainder, whose remainder is a register of T; the schedules read the
registers off the counts. -/

namespace Sys2Proof.Machine

/-! ### The levels -/

/-- T's four output levels in an admitted cycle (R110 to R113). -/
theorem step_levels {s u : State} (h : step s = .next u) :
    u.out.bclk = s.bclkLevel ∧ u.out.ws = s.wsLevel ∧ u.out.sd = s.sdLevel ∧
      u.out.needSample = s.needSampleLevel := by
  obtain ⟨-, -, rfl⟩ := step_next_admitted h
  exact cycleOutputs_transmitter s

theorem State.wsLevel_iff (s : State) : s.wsLevel = true ↔ s.t.nxt = .right := by
  cases h : s.t.nxt <;> simp [State.wsLevel, Channel.code, h]

theorem State.needSampleLevel_iff {s : State} (h0 : s.cycle ≠ 0) :
    s.needSampleLevel = true ↔ s.t.nxt ≠ s.t.cur ∧ s.t.np = s.t.cur := by
  simp only [State.needSampleLevel, if_neg h0, Bool.and_eq_true, bne_iff_ne, beq_iff_eq]

theorem State.sampleOf_eq (s : State) (c : Channel) :
    s.sampleOf c = if c = .left then s.inp.sampleLeft else s.inp.sampleRight := by
  cases c <;> rfl

/-- Settles O9: each level is its defining expression, and no draw is read. -/
theorem transmitterOutputLevels : Obligations.TransmitterOutputLevels := by
  intro s u h
  obtain ⟨ha, -, -⟩ := step_next_admitted h
  obtain ⟨hb, hws, hsd, hn⟩ := step_levels h
  refine ⟨hb, hws ▸ s.wsLevel_iff, fun hi hr => ?_, fun h0 => hn ▸ State.needSampleLevel_iff h0⟩
  rw [hsd, hi.sdLevel_run ha hr, State.sampleBit, State.sampleOf_eq, State.bitIndex]

/-- Settles O10: IDLE holds Left and Right, and the copy is Right, which differs from the active channel. -/
theorem idleTransmitterIsSilent : Obligations.IdleTransmitterIsSilent := by
  intro s u hinv hst h
  obtain ⟨-, -, hidle, -, -, -, hcopy⟩ := hinv
  obtain ⟨hcur, hnxt⟩ := hidle hst
  obtain ⟨-, hws, -, hn⟩ := step_levels h
  refine ⟨hws.trans (s.wsLevel_iff.2 hnxt), fun h0 => Bool.eq_false_iff.2 fun hneed => ?_⟩
  obtain ⟨-, hnp⟩ := (State.needSampleLevel_iff h0).1 (hn ▸ hneed)
  rw [hcopy hst h0, hcur] at hnp
  cases hnp

/-- A sample is asked for only in the cycle after an advance: any other operation leaves the channels equal, or
the copy equal to the pending one, or Left and Right with the copy Right (R101 to R109, R113). -/
theorem advance_of_needsSample {s : State} (hi : s.t.IdleInv) :
    (txWrites s).nxt ≠ (txWrites s).cur → (txWrites s).np = (txWrites s).cur →
      s.t.st = .run ∧ s.t.bp ≠ s.width := by
  have hhome (hst : s.t.st = .idle) : s.t.nxt ≠ .left := fun h => by cases (hi hst).2.symm.trans h
  apply txWrites_cases s (P := fun t => t.nxt ≠ t.cur → t.np = t.cur → s.t.st = .run ∧ s.t.bp ≠ s.width)
  case idleHold => exact fun hst _ hnp => absurd hnp (hhome hst)
  case start => exact fun hst _ _ _ hnp => absurd hnp (hhome hst)
  case count => exact fun _ _ hne hnp => absurd hnp hne
  case toggleInactive => exact fun _ hne hnp => absurd hnp hne
  case wrap => exact fun _ hne _ => absurd rfl hne
  case advance => exact fun hr hw _ _ _ => ⟨hr, hw⟩
  case advanceFlip => exact fun hr hw _ _ _ => ⟨hr, hw⟩

theorem cycle_ne_zero_of_step {s u : State} (h : step s = .next u) : u.cycle ≠ 0 := by
  obtain ⟨-, -, rfl⟩ := step_next_admitted h
  exact Nat.succ_ne_zero _

theorem advance_of_needSampleLevel {s u : State} (hi : s.t.IdleInv) (h : step s = .next u)
    (hneed : u.needSampleLevel = true) : s.t.st = .run ∧ s.t.bp ≠ s.width := by
  obtain ⟨hne, hnp⟩ := (State.needSampleLevel_iff (cycle_ne_zero_of_step h)).1 hneed
  obtain ⟨-, -, rfl⟩ := step_next_admitted h
  exact advance_of_needsSample hi hne hnp

/-- Settles O26: a pulse follows an advance, which is no operation of the wrap marker, where the first pulse is. -/
theorem needSamplePulseLastsOneCycle : Obligations.NeedSamplePulseLastsOneCycle := by
  intro s u v hinv h0 hu hv hfirst
  obtain ⟨-, -, hidle, hrun, -⟩ := hinv
  obtain ⟨ha, -, -⟩ := step_next_admitted hu
  obtain ⟨-, -, -, hn⟩ := step_levels hu
  obtain ⟨-, -, -, hn'⟩ := step_levels hv
  obtain ⟨hne, -⟩ := (State.needSampleLevel_iff h0).1 (hn ▸ hfirst)
  refine Bool.eq_false_iff.2 fun hsecond => ?_
  obtain ⟨hr, hbp⟩ := advance_of_needSampleLevel hidle hu (hn' ▸ hsecond)
  obtain ⟨-, -, -, -, -, -, hlast⟩ := hrun hr
  exact hbp ((hlast.1 hne).trans (ha.1 hr).2.symm)

/-! ### RUN -/

/-- In RUN the values T was started with are kept (R103 alone writes them). -/
theorem txWrites_started {s : State} (hr : s.t.st = .run) :
    (txWrites s).lb = s.t.lb ∧ (txWrites s).gDiv = s.t.gDiv ∧ (txWrites s).gWid = s.t.gWid := by
  have hnot (hst : s.t.st = .idle) {p : Prop} : p := absurd (hst.symm.trans hr) (by decide)
  apply txWrites_cases s (P := fun t => t.lb = s.t.lb ∧ t.gDiv = s.t.gDiv ∧ t.gWid = s.t.gWid)
  case idleHold => exact fun hst => hnot hst
  case start => exact fun hst => hnot hst
  case count => exact fun _ _ => ⟨rfl, rfl, rfl⟩
  case toggleInactive => exact fun _ => ⟨rfl, rfl, rfl⟩
  case wrap => exact fun _ => ⟨rfl, rfl, rfl⟩
  case advance => exact fun _ _ _ => ⟨rfl, rfl, rfl⟩
  case advanceFlip => exact fun _ _ _ => ⟨rfl, rfl, rfl⟩

/-- Settles O25: R114 refuses a change, and no operation of T in RUN writes its state or the latched values. -/
theorem runIsLeftOnlyByReset : Obligations.RunIsLeftOnlyByReset := by
  refine fun s hr => ⟨fun hc u h => ?_, fun u h => ?_⟩
  · rw [step_of_refusalT (State.refusalT_of_reconfig hr hc)] at h
    cases h
  · obtain ⟨-, -, rfl⟩ := step_next_admitted h
    exact ⟨txWrites_run hr, txWrites_started hr⟩

/-- A toggle to the inactive level changes the counter and the clock (R106). -/
theorem txWrites_inactive {s : State} (hr : s.t.st = .run) (he : s.t.cnt = s.divider)
    (ha : (!s.t.clk) ≠ activeLevel s.cfg) : txWrites s = { s.t.toggle with np := s.t.nxt } := by
  have hdone : s.countDone = true := beq_iff_eq.2 he
  have haway : s.towardActive = false := beq_eq_false_iff_ne.2 ha
  simp only [txWrites, (running_iff s).2 hr, hdone, haway, Bool.false_eq_true, if_true, if_false]

/-- A toggle to the active level moves the position on, and the pending channel becomes the active one (R105, R107
to R109). -/
theorem txWrites_active {s : State} (hr : s.t.st = .run) (he : s.t.cnt = s.divider)
    (ha : (!s.t.clk) = activeLevel s.cfg) :
    (txWrites s).cnt = 0 ∧ (txWrites s).clk = !s.t.clk ∧ (txWrites s).cur = s.t.nxt ∧
      (txWrites s).bp = if s.t.bp = s.width then 0 else s.t.bp + 1 := by
  have hdone : s.countDone = true := beq_iff_eq.2 he
  have htoward : s.towardActive = true := beq_iff_eq.2 ha
  simp only [txWrites, (running_iff s).2 hr, hdone, htoward, if_true, State.atWrap, beq_iff_eq]
  split_ifs <;> exact ⟨rfl, rfl, rfl, rfl⟩

/-! ### Runs under a held configuration -/

theorem Channel.eq_flip_of_ne {c c' : Channel} (h : c ≠ c') : c = c'.flip := by
  revert h
  cases c <;> cases c' <;> decide

/-- What a run of T under a held configuration keeps. -/
structure State.Steady (s : State) : Prop where
  held : s.HeldConfig
  admitted : s.TxAdmitted
  runInv : s.t.RunInv

namespace State.Steady

variable {s u : State}

/-- A next state in RUN has latched the ports of the cycle: a start latches them, and RUN admits no others. -/
theorem latched (hs : s.Steady) :
    (txWrites s).st = .run → s.divider = (txWrites s).gDiv ∧ s.width = (txWrites s).gWid := by
  cases hst : s.t.st with
  | idle =>
    rw [txWrites_idle hst]
    split
    · exact fun h => absurd (hst.symm.trans h) (by decide)
    · exact fun _ => ⟨rfl, rfl⟩
  | run =>
    obtain ⟨-, hdiv, hwid⟩ := txWrites_started hst
    rw [hdiv, hwid]
    exact fun _ => hs.admitted.1 hst

theorem after_step (hs : s.Steady) (h : step s = .next u) : u.Steady := by
  obtain ⟨hheld, hdiv, hwid, -⟩ := heldConfig_step hs.held h
  obtain ⟨-, -, rfl⟩ := step_next_admitted h
  refine ⟨hheld, ⟨?_, ?_⟩, txWrites_runInv hs.admitted hs.runInv⟩
  · rw [hdiv, hwid]
    exact hs.latched
  · rw [hwid]
    exact hs.admitted.2

theorem bounds (hs : s.Steady) (hr : s.t.st = .run) : s.RunBounds := hs.admitted.runBounds hs.runInv hr

/-- The pending channel is the other one exactly at the wrap marker (R107 to R109). -/
theorem nxt_ne_cur_iff (hs : s.Steady) (hr : s.t.st = .run) : s.t.nxt ≠ s.t.cur ↔ s.t.bp = s.width := by
  obtain ⟨-, -, -, -, -, -, hlast⟩ := hs.runInv hr
  rw [(hs.admitted.1 hr).2, hlast]

theorem nxt_eq (hs : s.Steady) (hr : s.t.st = .run) :
    s.t.nxt = if s.t.bp = s.width then s.t.cur.flip else s.t.cur := by
  split
  · rename_i hbp
    exact Channel.eq_flip_of_ne ((hs.nxt_ne_cur_iff hr).2 hbp)
  · rename_i hbp
    exact not_not.1 (mt (hs.nxt_ne_cur_iff hr).1 hbp)

/-- In RUN `sd` is the bit of the active channel's word that the position names (R112). -/
theorem sdLevel_eq (hs : s.Steady) (hr : s.t.st = .run) :
    s.sdLevel = (s.sampleOf s.t.cur).getLsbD (s.width.toNat - s.t.bp.toNat) := by
  have hb := hs.bounds hr
  have hindex : s.bitIndex = s.width.toNat - s.t.bp.toNat := hb.bitIndex_toNat
  have hle : s.bitIndex ≤ 23 := hindex ▸ (Nat.sub_le _ _).trans hb.width_le
  rw [State.sdLevel, (running_iff s).2 hr, decide_eq_true hle, State.sampleBit, hindex]
  rfl

end State.Steady

/-! ### Counting a run -/

/-- The channel of a word, `m` words after one of channel `c`. -/
def Channel.after (c : Channel) (m : Nat) : Channel := if m % 2 = 0 then c else c.flip

theorem Channel.after_succ (c : Channel) (m : Nat) : c.after (m + 1) = (c.after m).flip := by
  unfold Channel.after
  rcases Nat.mod_two_eq_zero_or_one m with h | h
  · simp [h, Nat.add_mod]
  · simp [h, Nat.add_mod]

/-- The toggles of the bit clock since it was last at the active level. -/
def sinceActive (cfg : Config) (clk : Bool) : Nat := if clk = activeLevel cfg then 0 else 1

theorem sinceActive_not (cfg : Config) (clk : Bool) : sinceActive cfg (!clk) + sinceActive cfg clk = 1 := by
  unfold sinceActive
  cases clk <;> cases activeLevel cfg <;> rfl

theorem sinceActive_le_one (cfg : Config) (clk : Bool) : sinceActive cfg clk ≤ 1 :=
  (Nat.le_add_left _ _).trans (sinceActive_not cfg clk).le

theorem eq_activeLevel_of_sinceActive {cfg : Config} {clk : Bool} (h : sinceActive cfg clk = 0) :
    clk = activeLevel cfg := by
  by_contra hne
  rw [sinceActive, if_neg hne] at h
  cases h

theorem eq_not_activeLevel_of_sinceActive {cfg : Config} {clk : Bool} (h : sinceActive cfg clk = 1) :
    clk = !activeLevel cfg := by
  refine Bool.eq_not_of_ne fun heq => ?_
  rw [sinceActive, if_pos heq] at h
  cases h

/-- From a clock at the active level the first active toggle is the second one. -/
theorem firstActive_add_sinceActive (cfg : Config) (clk : Bool) :
    firstActive cfg clk + sinceActive cfg clk = 1 :=
  sinceActive_not cfg clk

/-- A quotient and a remainder are unique. -/
theorem eq_and_eq_of_mul_add_eq {d e c e' c' : Nat} (h : e * (d + 1) + c = e' * (d + 1) + c') (hc : c ≤ d)
    (hc' : c' ≤ d) : e = e' ∧ c = c' := by
  have hunique {e c : Nat} (hc : c ≤ d) : (e * (d + 1) + c) / (d + 1) = e ∧ (e * (d + 1) + c) % (d + 1) = c :=
    (Nat.div_mod_unique (Nat.succ_pos d)).2 ⟨by rw [Nat.mul_comm, Nat.add_comm], Nat.lt_succ_of_le hc⟩
  obtain ⟨hq, hm⟩ := hunique (e := e) hc
  obtain ⟨hq', hm'⟩ := hunique (e := e') hc'
  exact ⟨hq.symm.trans (h ▸ hq'), hm.symm.trans (h ▸ hm')⟩

/-- `u` is a RUN state `k` ticks after T had the registers of `s`, with `e` toggles, `a` active edges and `m`
changes of the word in between. Each count leaves its remainder in a register of `u`: the counter, the clock level,
the position. -/
structure State.Tally (s u : State) (k e a m : Nat) : Prop where
  steady : u.Steady
  run : u.t.st = .run
  cfg : u.cfg = s.cfg
  divider : u.divider = s.divider
  width : u.width = s.width
  ticks : s.t.cnt + k = e * (s.divider + 1) + u.t.cnt
  toggles : e + 1 = firstActive s.cfg s.t.clk + 2 * a + sinceActive s.cfg u.t.clk
  edges : s.t.bp.toNat + a = m * (s.width.toNat + 1) + u.t.bp.toNat
  words : u.t.cur = s.t.cur.after m

namespace State.Tally

variable {s u v : State} {k e a m : Nat}

theorem refl (hs : s.Steady) (hr : s.t.st = .run) : s.Tally s 0 0 0 0 where
  steady := hs
  run := hr
  cfg := rfl
  divider := rfl
  width := rfl
  ticks := by omega
  toggles := (firstActive_add_sinceActive s.cfg s.t.clk).symm
  edges := by omega
  words := rfl

theorem cnt_le (ht : s.Tally u k e a m) : u.t.cnt ≤ s.divider := ht.divider ▸ (ht.steady.bounds ht.run).cnt_le

theorem bp_le (ht : s.Tally u k e a m) : u.t.bp.toNat ≤ s.width.toNat := ht.width ▸ (ht.steady.bounds ht.run).bp_le

/-- What remains to be counted in a tick. -/
theorem of_step {e' a' m' : Nat} (ht : s.Tally u k e a m) (h : step u = .next v)
    (ticks : s.t.cnt + (k + 1) = e' * (s.divider + 1) + (txWrites u).cnt)
    (toggles : e' + 1 = firstActive s.cfg s.t.clk + 2 * a' + sinceActive s.cfg (txWrites u).clk)
    (edges : s.t.bp.toNat + a' = m' * (s.width.toNat + 1) + (txWrites u).bp.toNat)
    (words : (txWrites u).cur = s.t.cur.after m') : s.Tally v (k + 1) e' a' m' := by
  obtain ⟨-, hdiv, hwid, hcfg⟩ := heldConfig_step ht.steady.held h
  have hsteady := ht.steady.after_step h
  obtain ⟨-, -, rfl⟩ := step_next_admitted h
  exact ⟨hsteady, txWrites_run ht.run, hcfg.trans ht.cfg, hdiv.trans ht.divider, hwid.trans ht.width, ticks,
    toggles, edges, words⟩

/-- TX_COUNT (R104). -/
theorem count (ht : s.Tally u k e a m) (h : step u = .next v) (he : u.t.cnt ≠ u.divider) :
    s.Tally v (k + 1) e a m := by
  have hcnt : u.onDivBits (u.t.cnt + 1) = u.t.cnt + 1 := (ht.steady.bounds ht.run).onDivBits_cnt_succ he
  have hw := txWrites_count ht.run he
  rw [hcnt] at hw
  refine ht.of_step h ?_ ?_ ?_ ?_ <;> rw [hw]
  · exact congrArg Nat.succ ht.ticks
  · exact ht.toggles
  · exact ht.edges
  · exact ht.words

/-- Every toggle uses up a full count (R105). -/
theorem ticks_of_toggle (ht : s.Tally u k e a m) (he : u.t.cnt = u.divider) :
    s.t.cnt + (k + 1) = (e + 1) * (s.divider + 1) := by
  have hticks := ht.ticks
  rw [he, ht.divider] at hticks
  rw [Nat.succ_mul, ← Nat.add_assoc, hticks, Nat.add_assoc]

/-- TX_TOGGLE_INACTIVE (R106): the clock leaves the active level. -/
theorem toggleInactive (ht : s.Tally u k e a m) (h : step u = .next v) (he : u.t.cnt = u.divider)
    (ha : (!u.t.clk) ≠ activeLevel u.cfg) : s.Tally v (k + 1) (e + 1) a m := by
  have hlevel : sinceActive s.cfg (!u.t.clk) = 1 := if_neg (ht.cfg ▸ ha)
  have hnot := sinceActive_not s.cfg u.t.clk
  have htoggles := ht.toggles
  refine ht.of_step h ?_ ?_ ?_ ?_ <;> rw [txWrites_inactive ht.run he ha]
  · exact ht.ticks_of_toggle he
  · change e + 1 + 1 = _ + sinceActive s.cfg (!u.t.clk)
    omega
  · exact ht.edges
  · exact ht.words

/-- An active edge moves the position on, and starts a word from the wrap marker (R107 to R109). -/
theorem word_of_activeEdge (ht : s.Tally u k e a m) : ∃ m',
    s.t.bp.toNat + (a + 1) = m' * (s.width.toNat + 1) + (if u.t.bp = u.width then 0 else u.t.bp + 1).toNat ∧
      u.t.nxt = s.t.cur.after m' := by
  have hedges := ht.edges
  rw [ht.steady.nxt_eq ht.run]
  by_cases hw : u.t.bp = u.width
  · have hend : u.t.bp.toNat = s.width.toNat := congrArg BitVec.toNat (hw.trans ht.width)
    refine ⟨m + 1, ?_, ?_⟩
    · rw [if_pos hw, Nat.succ_mul]
      change _ = _ + 0
      omega
    · rw [if_pos hw, ht.words, Channel.after_succ]
  · refine ⟨m, ?_, ?_⟩
    · rw [if_neg hw, (ht.steady.bounds ht.run).bp_succ hw]
      omega
    · rw [if_neg hw, ht.words]

/-- TX_WRAP, TX_ADVANCE, TX_ADVANCE_FLIP (R107 to R109): the clock comes to the active level. -/
theorem activeEdge (ht : s.Tally u k e a m) (h : step u = .next v) (he : u.t.cnt = u.divider)
    (ha : (!u.t.clk) = activeLevel u.cfg) : ∃ m', s.Tally v (k + 1) (e + 1) (a + 1) m' := by
  obtain ⟨hcnt, hclk, hcur, hbp⟩ := txWrites_active ht.run he ha
  have hlevel : sinceActive s.cfg (!u.t.clk) = 0 := if_pos (ht.cfg ▸ ha)
  have hnot := sinceActive_not s.cfg u.t.clk
  have htoggles := ht.toggles
  obtain ⟨m', hedges, hnxt⟩ := ht.word_of_activeEdge
  refine ⟨m', ht.of_step h ?_ ?_ ?_ ?_⟩
  · rw [hcnt]
    exact ht.ticks_of_toggle he
  · rw [hclk]
    omega
  · rw [hbp, hedges]
  · rw [hcur, hnxt]

/-- A tick counts, or toggles to the inactive level, or is an active edge. -/
theorem tick (ht : s.Tally u k e a m) (h : step u = .next v) : ∃ e' a' m', s.Tally v (k + 1) e' a' m' := by
  by_cases he : u.t.cnt = u.divider
  · by_cases ha : (!u.t.clk) = activeLevel u.cfg
    · exact ⟨e + 1, a + 1, ht.activeEdge h he ha⟩
    · exact ⟨e + 1, a, m, ht.toggleInactive h he ha⟩
  · exact ⟨e, a, m, ht.count h he⟩

theorem after_runTicks {n : Nat} (ht : s.Tally u k e a m) (h : runTicks n u = .next v) :
    ∃ e' a' m', s.Tally v (k + n) e' a' m' := by
  induction n generalizing v with
  | zero =>
    cases h
    exact ⟨e, a, m, ht⟩
  | succ n ih =>
    obtain ⟨w, hw, hv⟩ := (runTicks_snoc_next_iff n u v).1 h
    obtain ⟨e', a', m', ht'⟩ := ih hw
    exact ht'.tick hv

/-! ### Reading the counts -/

/-- The toggles and the counter of a number of ticks. -/
theorem toggles_eq (ht : s.Tally u k e a m) {i c : Nat} (h : s.t.cnt + k = i * (s.divider + 1) + c)
    (hc : c ≤ s.divider) : e = i ∧ u.t.cnt = c :=
  eq_and_eq_of_mul_add_eq (ht.ticks.symm.trans h) ht.cnt_le hc

/-- The parity of the toggles gives the clock level (R117). -/
theorem clk_eq (ht : s.Tally u k e a m) : u.t.clk = if e % 2 = 0 then s.t.clk else !s.t.clk := by
  have hfirst := firstActive_add_sinceActive s.cfg s.t.clk
  have hnot := sinceActive_not s.cfg s.t.clk
  have htoggles := ht.toggles
  by_cases h : u.t.clk = s.t.clk
  · rw [h] at htoggles ⊢
    rw [if_pos (by omega)]
  · have hne : u.t.clk = !s.t.clk := Bool.eq_not_of_ne h
    rw [hne] at htoggles ⊢
    rw [if_neg (by omega)]

end State.Tally

theorem txAdmitted_of_runTicks {s u : State} {k : Nat} (hk : 0 < k) (h : runTicks k s = .next u) :
    s.TxAdmitted := by
  obtain ⟨n, rfl⟩ := Nat.exists_eq_succ_of_ne_zero hk.ne'
  obtain ⟨v, hv, -⟩ := (runTicks_succ_next_iff n s u).1 h
  obtain ⟨ha, -⟩ := step_next_admitted hv
  exact ha

/-- Settles O27: the counter is the remainder of the ticks by `divider + 1`, and the toggles the quotient: 0, 1 and 2
in the three clauses on the level. -/
theorem bitClockTogglesEveryDividerPlusOneTicks : Obligations.BitClockTogglesEveryDividerPlusOneTicks := by
  intro s u k hinv hr hheld hk h
  obtain ⟨-, -, -, hrun, -⟩ := hinv
  have hs : s.Steady := ⟨hheld, txAdmitted_of_runTicks hk h, hrun⟩
  obtain ⟨e, a, m, ht⟩ := (State.Tally.refl hs hr).after_runTicks h
  rw [Nat.zero_add] at ht
  have hcnt := (hs.bounds hr).cnt_le
  have hclk := ht.clk_eq
  obtain ⟨he, hc⟩ := ht.toggles_eq (Nat.div_add_mod' _ _).symm (Nat.lt_succ_iff.1 (Nat.mod_lt _ (Nat.succ_pos _)))
  refine ⟨ht.run, hc, he ▸ hclk, fun hle => ?same, fun hlt hle => ?other, fun hperiod => ?period⟩
  case same =>
    obtain ⟨rfl, -⟩ := ht.toggles_eq (i := 0) (c := s.t.cnt + k) (by omega) (by omega)
    exact hclk
  case other =>
    obtain ⟨rfl, -⟩ := ht.toggles_eq (i := 1) (c := s.t.cnt + k - (s.divider + 1)) (by omega) (by omega)
    exact hclk
  case period =>
    obtain ⟨rfl, hback⟩ := ht.toggles_eq (i := 2) (c := s.t.cnt) (by omega) hcnt
    exact ⟨hclk, hback⟩

/-! ### The schedules after a start -/

/-- The registers that TX_START loads (R103). The state is no state of a run, which has the next cycle's inputs
beside them; the ticks after the start are counted from it. -/
def State.started (s : State) : State :=
  { s with t := { s.t with st := .run, cnt := s.divider, bp := s.width, cur := .left } }

theorem State.started_tally {s u : State} (hst : s.t.st = .idle) (hd : s.divider ≠ 0) (hw : s.width ≠ 0)
    (hheld : s.HeldConfig) (h : step s = .next u) : s.started.Tally u 0 0 0 0 := by
  obtain ⟨ha, -, hu⟩ := step_next_admitted h
  obtain ⟨-, hdiv, hwid, hcfg⟩ := heldConfig_step hheld h
  have hs : s.Steady := ⟨hheld, ha, fun hr => absurd (hst.symm.trans hr) (by decide)⟩
  have hstart := txWrites_idle hst
  rw [s.not_disabled_iff.2 ⟨hd, hw⟩] at hstart
  have ht : u.t = _ := (congrArg State.t hu).trans hstart
  exact
    { steady := hs.after_step h
      run := by rw [ht]; rfl
      cfg := hcfg
      divider := hdiv
      width := hwid
      ticks := by rw [ht, Nat.zero_mul, Nat.zero_add]; rfl
      toggles := by rw [ht]; exact (firstActive_add_sinceActive s.cfg s.t.clk).symm
      edges := by rw [ht, Nat.zero_mul, Nat.zero_add]; rfl
      words := by rw [ht]; rfl }

/-- The counts `q` ticks after the first RUN cycle. -/
theorem State.started_runTicks {s u : State} {q : Nat} (hst : s.t.st = .idle) (hd : s.divider ≠ 0)
    (hw : s.width ≠ 0) (hheld : s.HeldConfig) (h : runTicks (1 + q) s = .next u) :
    ∃ e a m, s.started.Tally u q e a m := by
  rw [Nat.add_comm] at h
  obtain ⟨v, hv, hu⟩ := (runTicks_succ_next_iff q s u).1 h
  simpa only [Nat.zero_add] using (State.started_tally hst hd hw hheld hv).after_runTicks hu

theorem Channel.left_after_succ (m : Nat) : Channel.left.after (m + 1) = wordChannel m := by
  rw [Channel.after_succ]
  unfold Channel.after wordChannel
  split <;> rfl

namespace State.Tally

variable {s u : State} {q e a m : Nat}

/-- On the last bit of a word, and before the first one, the pending channel is the other one (R109). -/
theorem nxt_ne_cur_iff (ht : s.started.Tally u q e a m) : u.t.nxt ≠ u.t.cur ↔ u.t.bp.toNat = s.width.toNat := by
  have hwidth : u.width = s.width := ht.width
  rw [ht.steady.nxt_ne_cur_iff ht.run, hwidth, BitVec.toNat_inj]

/-- After `a` active edges the pending channel is that of word `a / (w + 1)` (R118). -/
theorem nxt_eq (ht : s.started.Tally u q e a m) : u.t.nxt = wordChannel (a / (s.width.toNat + 1)) := by
  have hbp := ht.bp_le
  have hedges : s.width.toNat + a = m * (s.width.toNat + 1) + u.t.bp.toNat := ht.edges
  have hwords : u.t.cur = Channel.left.after m := ht.words
  change u.t.bp.toNat ≤ s.width.toNat at hbp
  rw [ht.steady.nxt_eq ht.run, hwords]
  by_cases hw : u.t.bp = u.width
  · have hend : u.t.bp.toNat = s.width.toNat := congrArg BitVec.toNat (hw.trans ht.width)
    rw [if_pos hw, ← Channel.after_succ, Channel.left_after_succ]
    rw [show a = m * (s.width.toNat + 1) by omega, Nat.mul_div_cancel _ (Nat.succ_pos _)]
  · have hlt : u.t.bp.toNat < s.width.toNat :=
      Nat.lt_of_le_of_ne hbp fun h => hw (BitVec.eq_of_toNat_eq (h.trans (congrArg BitVec.toNat ht.width.symm)))
    cases m with
    | zero => omega
    | succ m =>
      rw [Nat.succ_mul] at hedges
      rw [if_neg hw, Channel.left_after_succ]
      rw [show a = u.t.bp.toNat + 1 + m * (s.width.toNat + 1) by omega, Nat.add_mul_div_right _ _ (Nat.succ_pos _),
        Nat.div_eq_of_lt (Nat.succ_lt_succ hlt), Nat.zero_add]

/-- Before the first active edge T is at the wrap marker, with the Left channel (R118). -/
theorem of_no_edge (ht : s.started.Tally u q e 0 m) : u.t.bp = s.width ∧ u.t.cur = .left := by
  have hedges : s.width.toNat = m * (s.width.toNat + 1) + u.t.bp.toNat := ht.edges
  obtain ⟨rfl, hbp⟩ := eq_and_eq_of_mul_add_eq (e := 0) (c := s.width.toNat)
    (by rw [← hedges, Nat.zero_mul, Nat.zero_add]) le_rfl ht.bp_le
  exact ⟨BitVec.eq_of_toNat_eq hbp.symm, ht.words⟩

/-- After the n-th active edge (from 0) T shows bit `n % (w + 1)` of word `n / (w + 1)` (R118). -/
theorem of_edge {n : Nat} (ht : s.started.Tally u q e (n + 1) m) :
    u.t.bp.toNat = n % (s.width.toNat + 1) ∧ u.t.cur = wordChannel (n / (s.width.toNat + 1)) := by
  have hedges : s.width.toNat + (n + 1) = m * (s.width.toNat + 1) + u.t.bp.toNat := ht.edges
  have hbp : u.t.bp.toNat ≤ s.width.toNat := ht.bp_le
  cases m with
  | zero => omega
  | succ m =>
    rw [Nat.succ_mul] at hedges
    have hwords : u.t.cur = Channel.left.after (m + 1) := ht.words
    obtain ⟨hq, hm⟩ := eq_and_eq_of_mul_add_eq (e := m) (c := u.t.bp.toNat)
      ((by omega : _ = n).trans (Nat.div_add_mod' n (s.width.toNat + 1)).symm) hbp
      (Nat.lt_succ_iff.1 (Nat.mod_lt _ (Nat.succ_pos _)))
    exact ⟨hm, by rw [hwords, Channel.left_after_succ, hq]⟩

/-- Up to the first active edge there is none (R116). -/
theorem edges_eq_zero (ht : s.started.Tally u q e a m) (hq : q < 1 + firstActive s.cfg s.t.clk * (s.divider + 1)) :
    a = 0 := by
  have hticks : s.divider + q = e * (s.divider + 1) + u.t.cnt := ht.ticks
  have htoggles : e + 1 = firstActive s.cfg s.t.clk + 2 * a + sinceActive s.cfg u.t.clk := ht.toggles
  have hlt : e * (s.divider + 1) < (firstActive s.cfg s.t.clk + 1) * (s.divider + 1) := by
    rw [Nat.succ_mul]
    omega
  have hle := Nat.lt_of_mul_lt_mul_right hlt
  omega

/-- The cycle before the n-th active edge (R116). -/
theorem before_edge {n : Nat}
    (ht : s.started.Tally u ((firstActive s.cfg s.t.clk + 2 * n) * (s.divider + 1)) e a m) : a = n := by
  have htoggles : e + 1 = firstActive s.cfg s.t.clk + 2 * a + sinceActive s.cfg u.t.clk := ht.toggles
  have hlevel := sinceActive_le_one s.cfg u.t.clk
  obtain ⟨he, -⟩ := ht.toggles_eq (Nat.add_comm _ _) le_rfl
  omega

/-- `r` ticks after the n-th active edge: no other active edge is made for `2 * (d + 1)` ticks, and the clock is at
the active level for the first `d + 1` of them (R116, R117). -/
theorem after_edge {n r : Nat} (hr : r < 2 * (s.divider + 1))
    (ht : s.started.Tally u (1 + (firstActive s.cfg s.t.clk + 2 * n) * (s.divider + 1) + r) e a m) :
    a = n + 1 ∧ u.t.cnt = r % (s.divider + 1) ∧
      u.t.clk = (if r < s.divider + 1 then activeLevel s.cfg else !activeLevel s.cfg) := by
  have htoggles : e + 1 = firstActive s.cfg s.t.clk + 2 * a + sinceActive s.cfg u.t.clk := ht.toggles
  have hlevel := sinceActive_le_one s.cfg u.t.clk
  have hsplit : s.divider + (1 + (firstActive s.cfg s.t.clk + 2 * n) * (s.divider + 1) + r) =
      (firstActive s.cfg s.t.clk + 2 * n + 1 + r / (s.divider + 1)) * (s.divider + 1) + r % (s.divider + 1) := by
    have hdm := Nat.div_add_mod' r (s.divider + 1)
    rw [Nat.add_mul _ (r / _), Nat.succ_mul (firstActive s.cfg s.t.clk + 2 * n)]
    omega
  obtain ⟨he, hcnt⟩ := ht.toggles_eq hsplit (Nat.lt_succ_iff.1 (Nat.mod_lt _ (Nat.succ_pos _)))
  by_cases hhalf : r < s.divider + 1
  · rw [Nat.div_eq_of_lt hhalf] at he
    rw [if_pos hhalf]
    exact ⟨by omega, hcnt, eq_activeLevel_of_sinceActive (by omega)⟩
  · rw [Nat.div_eq_of_lt_le (k := 1) (by omega) (by omega)] at he
    rw [if_neg hhalf]
    exact ⟨by omega, hcnt, eq_not_activeLevel_of_sinceActive (by omega)⟩

end State.Tally

/-- The ticks from IDLE to `r` ticks after the n-th active edge, the start apart. -/
theorem ticks_after_start (x r : Nat) : 2 + x + r = 1 + (1 + x + r) := by omega

/-- The same ticks, the start and the last one apart. -/
theorem ticks_before_last (x r : Nat) : 2 + x + r = 1 + (x + r) + 1 := by omega

/-- Settles O28: the counts after the n-th active edge, read in T's registers. -/
theorem wordScheduleAfterAStart : Obligations.WordScheduleAfterAStart := by
  intro s u n r hst hd hw hheld hr h
  rw [ticks_after_start] at h
  obtain ⟨e, a, m, ht⟩ := State.started_runTicks hst hd hw hheld h
  obtain ⟨rfl, hcnt, hclk⟩ := ht.after_edge hr
  obtain ⟨hbp, hcur⟩ := ht.of_edge
  refine ⟨ht.run, hbp, hcur, ht.nxt_eq, hcnt, hclk, ?_⟩
  rw [ht.steady.sdLevel_eq ht.run, ht.width, hbp]
  rfl

/-- Settles O29: before the first active edge the position is the width, so the bit index is 0. -/
theorem beforeTheFirstWordTheLeftBitIsShown : Obligations.BeforeTheFirstWordTheLeftBitIsShown := by
  intro s u q hst hd hw hheld hq h
  obtain ⟨e, a, m, ht⟩ := State.started_runTicks hst hd hw hheld h
  obtain rfl := ht.edges_eq_zero hq
  obtain ⟨hbp, hcur⟩ := ht.of_no_edge
  have hnxt := ht.nxt_eq
  rw [Nat.zero_div] at hnxt
  refine ⟨ht.run, hbp, hcur, hnxt, ?_⟩
  have hwidth : u.width = s.width := ht.width
  rw [ht.steady.sdLevel_eq ht.run, hcur, hbp, hwidth, Nat.sub_self]
  rfl

/-- The copy is the pending channel of the cycle before (R101, R113). -/
theorem needSampleLevel_after_step {v u : State} (h : step v = .next u) :
    u.needSampleLevel = true ↔ u.t.nxt ≠ u.t.cur ∧ v.t.nxt = u.t.cur := by
  have hnp : u.t.np = v.t.nxt := (npUpdateCopiesThePendingChannel v).2.2 u h
  rw [State.needSampleLevel_iff (cycle_ne_zero_of_step h), hnp]

/-- Settles O30: the pending channel differs from the active one from the edge onto the last bit on, and its copy
is the active channel in the first cycle after that edge alone. Before the first edge no advance has fired. -/
theorem needSampleScheduleAfterAStart : Obligations.NeedSampleScheduleAfterAStart := by
  refine fun s hst hd hw hheld => ⟨fun u n r hr h => ?after, fun hinv u q hq h => ?before⟩
  case after =>
    obtain ⟨e, a, m, ht⟩ := State.started_runTicks hst hd hw hheld (ticks_after_start _ r ▸ h)
    obtain ⟨rfl, -, -⟩ := ht.after_edge hr
    obtain ⟨hbp, hcur⟩ := ht.of_edge
    rw [ticks_before_last, runTicks_snoc_next_iff] at h
    obtain ⟨v, hv, hu⟩ := h
    obtain ⟨e', a', m', ht'⟩ := State.started_runTicks hst hd hw hheld hv
    rw [needSampleLevel_after_step hu, ht'.nxt_eq, hcur]
    cases r with
    | zero =>
      obtain rfl := ht'.before_edge (n := n)
      rw [← hcur, ht.nxt_ne_cur_iff, hbp, hcur, Nat.succ_mod_succ_eq_zero_iff]
      exact and_comm.trans (and_congr_left' (iff_of_true rfl rfl))
    | succ r =>
      rw [show ∀ x, x + (r + 1) = 1 + x + r from fun x => by omega] at ht'
      obtain ⟨rfl, -, -⟩ := ht'.after_edge (n := n) (r := r) (Nat.lt_of_succ_lt hr)
      rw [ht.nxt_eq]
      exact iff_of_false (fun hneed => hneed.1 hneed.2) (fun hzero => Nat.succ_ne_zero r hzero.1)
  case before =>
    obtain ⟨-, -, hidle, -⟩ := hinv
    refine Bool.eq_false_iff.2 fun hneed => ?_
    rw [Nat.add_comm, runTicks_snoc_next_iff] at h
    obtain ⟨v, hv, hu⟩ := h
    cases q with
    | zero =>
      cases hv
      obtain ⟨hr, -⟩ := advance_of_needSampleLevel hidle hu hneed
      exact absurd (hst.symm.trans hr) (by decide)
    | succ q =>
      rw [Nat.add_comm] at hv
      obtain ⟨e, a, m, ht⟩ := State.started_runTicks hst hd hw hheld hv
      obtain rfl := ht.edges_eq_zero (Nat.lt_of_succ_lt hq)
      obtain ⟨hbp, -⟩ := ht.of_no_edge
      have hrunning : v.t.IdleInv := fun hi => absurd (ht.run.symm.trans hi) (by decide)
      obtain ⟨-, hne⟩ := advance_of_needSampleLevel hrunning hu hneed
      exact hne (hbp.trans ht.width.symm)

end Sys2Proof.Machine
end

section
/-! PROOFS. The operations of the control request handler (spec/42_control_handler.md R140 to R165): when each
fires, what it does, and what those of one cycle do together, in any order. The laws of a transfer are read off
the operations that fire. -/

namespace Sys2Proof.Machine

/-! ### When an operation of H fires -/

/-- The condition of each row of H's table, on the state and the inputs of the cycle (R88, R142 to R159). -/
def State.Fires (s : State) : Instr → Prop
  | .idleIgnore => s.h.st = .idle ∧ ¬(s.inp.setupRcv = true ∧ s.eligible = true)
  | .idleDispatchCur => s.h.st = .idle ∧ s.inp.setupRcv = true ∧ s.eligible = true ∧ s.isCur = true
  | .idleDispatchUnhandled => s.h.st = .idle ∧ s.inp.setupRcv = true ∧ s.eligible = true ∧ s.isCur = false
  | .getDrive => s.h.st = .handleCurrent ∧ s.inp.setup.isIn = true
  | .getDataMatch => s.h.st = .handleCurrent ∧ s.inp.setup.isIn = true ∧ s.inp.dataReq = true ∧ s.lenMatch = true
  | .getDataMismatch =>
    s.h.st = .handleCurrent ∧ s.inp.setup.isIn = true ∧ s.inp.dataReq = true ∧ s.lenMatch = false
  | .getStatus => s.h.st = .handleCurrent ∧ s.inp.setup.isIn = true ∧ s.inp.statusReq = true
  | .setDrive => s.h.st = .handleCurrent ∧ s.inp.setup.isIn = false
  | .setArm => s.h.st = .handleCurrent ∧ s.inp.setup.isIn = false ∧ s.h.trig = false ∧ s.lenMatch = true
  | .setMismatch => s.h.st = .handleCurrent ∧ s.inp.setup.isIn = false ∧ s.h.trig = false ∧ s.lenMatch = false
  | .setCommit => s.h.st = .handleCurrent ∧ s.inp.setup.isIn = false ∧ s.selPD = true ∧ s.inp.rxDone = true
  | .setDiscard => s.h.st = .handleCurrent ∧ s.inp.setup.isIn = false ∧ s.selPD = false ∧ s.inp.rxDone = true
  | .setDataAck => s.h.st = .handleCurrent ∧ s.inp.setup.isIn = false ∧ s.inp.rxReady = true
  | .setStatusZlp => s.h.st = .handleCurrent ∧ s.inp.setup.isIn = false ∧ s.inp.statusReq = true
  | .setDone => s.h.st = .handleCurrent ∧ s.inp.setup.isIn = false ∧ s.inp.ackIn = true
  | .unhandledStallData => s.h.st = .unhandled ∧ s.inp.dataReq = true
  | .unhandledStallStatus => s.h.st = .unhandled ∧ s.inp.statusReq = true
  | .hold => s.h.st ≠ .idle ∧ s.handlerKey.actingRows.any (·.1) = false
  | _ => False

theorem key_busy_iff (s : State) : (s.handlerKey.current || s.handlerKey.unhandled) = true ↔ s.h.st ≠ .idle := by
  rw [Bool.or_eq_true, key_current_iff, key_unhandled_iff]
  cases s.h.st <;> decide

/-- An operation of H is among those of a cycle exactly when the condition of its row holds. -/
theorem mem_operations_iff_fires {i : Instr} (hi : isHandlerOp i = true) (s : State) :
    i ∈ s.operations ↔ s.Fires i := by
  rw [mem_operations_handler hi, mem_allRows]
  cases i <;> cases hi <;>
    simp only [State.Fires, Bool.and_eq_true, Bool.not_eq_true', key_idle_iff, key_current_iff, key_unhandled_iff,
      key_busy_iff, and_assoc] <;>
    simp [State.handlerKey, State.setup, and_assoc]

/-! ### The adapter ports and the setting -/

/-- The transmit adapter's ports show the resolved value and length in a GET cycle, else the draws (R49, R146). -/
theorem cycleOutputs_txPorts (s : State) :
    (cycleOutputs s).txPayload = (if .getDrive ∈ s.operations then s.resVal else Config.freeTxPayload s.draws) ∧
    (cycleOutputs s).txMaxLen = (if .getDrive ∈ s.operations then s.resLen else Config.freeTxMaxLen s.draws) := by
  simp (disch := decide) only [mem_operations_iff_fires, State.Fires]
  unfold cycleOutputs State.setup
  cases s.h.st with
  | handleCurrent => cases s.inp.setup.isIn <;> exact ⟨rfl, rfl⟩
  | idle | unhandled => exact ⟨rfl, rfl⟩

/-- The receive adapter's port shows the resolved length in a SET cycle, else the draw (R49, R150). -/
theorem cycleOutputs_rxMaxLen (s : State) :
    (cycleOutputs s).rxMaxLen = (if .setDrive ∈ s.operations then s.resLen else Config.freeRxMaxLen s.draws) := by
  simp (disch := decide) only [mem_operations_iff_fires, State.Fires]
  unfold cycleOutputs State.setup
  cases s.h.st with
  | handleCurrent => cases s.inp.setup.isIn <;> rfl
  | idle | unhandled => rfl

/-- The setting after a cycle (R153). -/
theorem handlerWrites_pds_of_commit (s : State) :
    (handlerWrites s).pds = if .setCommit ∈ s.operations then s.inp.rxPayload else s.h.pds :=
  (handlerWrites_pds s).trans (if_congr (mem_operations_iff_fires (i := .setCommit) rfl s).symm rfl rfl)

/-- No cycle both presents the setting and writes it: a transfer is a GET or a SET. -/
theorem State.not_fires_setCommit_of_getDrive {s : State} (hget : s.Fires .getDrive) : ¬s.Fires .setCommit := by
  intro hcommit
  obtain ⟨-, hin⟩ := hget
  obtain ⟨-, hout, -⟩ := hcommit
  exact absurd (hin.symm.trans hout) (by decide)

theorem State.not_commit_of_getDrive {s : State} (h : .getDrive ∈ s.operations) : .setCommit ∉ s.operations :=
  mt (mem_operations_iff_fires rfl s).1 (not_fires_setCommit_of_getDrive ((mem_operations_iff_fires rfl s).1 h))

/-! ### The operations, one by one -/

/-- Settles O34: the row of IDLE without an eligible SETUP; the effect is a write of `H.trig`. -/
theorem idleIgnoreClearsTheFlag : Obligations.IdleIgnoreClearsTheFlag :=
  fun s => ⟨mem_operations_iff_fires rfl s, rfl⟩

/-- Settles O35: the row of IDLE with an eligible CUR SETUP; the effect is `dispatch`. -/
theorem idleDispatchCurStartsATransfer : Obligations.IdleDispatchCurStartsATransfer :=
  fun s => ⟨mem_operations_iff_fires rfl s, rfl⟩

/-- Settles O36: the row of IDLE with any other eligible SETUP; the effect is `dispatch`. -/
theorem idleDispatchUnhandledStartsATransfer : Obligations.IdleDispatchUnhandledStartsATransfer :=
  fun s => ⟨mem_operations_iff_fires rfl s, rfl⟩

/-- Settles O37: the ports of a cycle by whether GET_DRIVE fires; a GET cycle has no commit. -/
theorem getDrivePresentsTheResolvedValue : Obligations.GetDrivePresentsTheResolvedValue := by
  refine fun s => ⟨mem_operations_iff_fires rfl s, rfl, fun hget u h => ?get, fun hget u h => ?other⟩
  all_goals
    obtain ⟨-, -, rfl⟩ := step_next_admitted h
    obtain ⟨hval, hlen⟩ := cycleOutputs_txPorts s
  case get =>
    have hpds := (handlerWrites_pds_of_commit s).trans (if_neg (State.not_commit_of_getDrive hget))
    exact ⟨hval.trans (if_pos hget), hlen.trans (if_pos hget), hpds⟩
  case other => exact ⟨hval.trans (if_neg hget), hlen.trans (if_neg hget)⟩

/-- Settles O38: the row of a GET's data stage with D and M; the effect is one pulse. -/
theorem getDataMatchStartsTheTransmitAdapter : Obligations.GetDataMatchStartsTheTransmitAdapter :=
  fun s => ⟨mem_operations_iff_fires rfl s, rfl⟩

/-- Settles O39: the row of a GET's data stage without M; the effect is `answerError`. -/
theorem getDataMismatchStallsTheTransfer : Obligations.GetDataMismatchStallsTheTransfer :=
  fun s => ⟨mem_operations_iff_fires rfl s, rfl⟩

/-- Settles O40: the row of a GET's status stage; the effect is a pulse and `goIdle`. -/
theorem getStatusAcknowledgesAndFinishes : Obligations.GetStatusAcknowledgesAndFinishes :=
  fun s => ⟨mem_operations_iff_fires rfl s, rfl⟩

/-- Settles O41: the port of a cycle by whether SET_DRIVE fires. -/
theorem setDrivePresentsTheResolvedLength : Obligations.SetDrivePresentsTheResolvedLength := by
  refine fun s => ⟨mem_operations_iff_fires rfl s, rfl, fun hset u h => ?set, fun hset u h => ?other⟩
  all_goals obtain ⟨-, -, rfl⟩ := step_next_admitted h
  case set => exact (cycleOutputs_rxMaxLen s).trans (if_pos hset)
  case other => exact (cycleOutputs_rxMaxLen s).trans (if_neg hset)

/-- Settles O42: the row of a SET not yet armed, with M; the effect is a pulse and the flag. -/
theorem setArmStartsTheReceiveAdapter : Obligations.SetArmStartsTheReceiveAdapter :=
  fun s => ⟨mem_operations_iff_fires rfl s, rfl⟩

/-- Settles O43: the row of a SET not yet armed, without M; the effect is `answerError`. -/
theorem setMismatchStallsTheTransfer : Obligations.SetMismatchStallsTheTransfer :=
  fun s => ⟨mem_operations_iff_fires rfl s, rfl⟩

/-- Settles O44: the effect is `pdsWrite`, and the closed form of the step has no other write of `H.pds`. -/
theorem setCommitStoresTheReceivedByte : Obligations.SetCommitStoresTheReceivedByte := by
  refine fun s => ⟨mem_operations_iff_fires rfl s, rfl, fun u h => ?_⟩
  obtain ⟨-, -, rfl⟩ := step_next_admitted h
  exact handlerWrites_pds_of_commit s

/-- Settles O45: the row of a received byte without P; the state is answered as it is. -/
theorem setDiscardChangesNothing : Obligations.SetDiscardChangesNothing :=
  fun s => ⟨mem_operations_iff_fires rfl s, rfl⟩

/-- Settles O46: the row of a SET with Y; the effect is one pulse. -/
theorem setDataAckAcknowledgesTheData : Obligations.SetDataAckAcknowledgesTheData :=
  fun s => ⟨mem_operations_iff_fires rfl s, rfl⟩

/-- Settles O47: the row of a SET with Q; the effect is one pulse. -/
theorem setStatusZlpAnswersTheStatusStage : Obligations.SetStatusZlpAnswersTheStatusStage :=
  fun s => ⟨mem_operations_iff_fires rfl s, rfl⟩

/-- Settles O48: the row of a SET with K; the effect is `goIdle`, which keeps the flag. -/
theorem setDoneReturnsToIdle : Obligations.SetDoneReturnsToIdle :=
  fun s => ⟨mem_operations_iff_fires rfl s, rfl⟩

/-- Settles O49: the two rows of UNHANDLED; both effects are `answerError`. -/
theorem unhandledStallAnswersTheFirstStage : Obligations.UnhandledStallAnswersTheFirstStage :=
  fun s => ⟨mem_operations_iff_fires rfl s, mem_operations_iff_fires rfl s, rfl, rfl⟩

/-! ### What the operations of a cycle do together -/

/-- Each pulse is asserted by an operation that fires (R140, R141). -/
theorem cycleOutputs_pulses (s : State) :
    ((cycleOutputs s).ackOut = true ↔ .getStatus ∈ s.operations ∨ .setDataAck ∈ s.operations) ∧
    ((cycleOutputs s).stallOut = true ↔ .getDataMismatch ∈ s.operations ∨ .setMismatch ∈ s.operations ∨
      .unhandledStallData ∈ s.operations ∨ .unhandledStallStatus ∈ s.operations) ∧
    ((cycleOutputs s).zlpOut = true ↔ .setStatusZlp ∈ s.operations) ∧
    ((cycleOutputs s).txStart = true ↔ .getDataMatch ∈ s.operations) ∧
    ((cycleOutputs s).rxStart = true ↔ .setArm ∈ s.operations) := by
  simp (disch := decide) only [mem_operations_iff_fires, State.Fires]
  unfold cycleOutputs State.setup
  cases s.h.st with
  | handleCurrent => cases s.inp.setup.isIn <;> simp [State.idleOutputs]
  | idle | unhandled => simp [State.idleOutputs]

/-- The state after a cycle of IDLE (R142 to R144). -/
theorem handlerWrites_st_of_idle {s : State} (hst : s.h.st = .idle) :
    (handlerWrites s).st =
      if .idleDispatchCur ∈ s.operations then .handleCurrent
      else if .idleDispatchUnhandled ∈ s.operations then .unhandled else .idle := by
  simp (disch := decide) only [mem_operations_iff_fires, State.Fires, handlerWrites_idle hst, hst]
  cases s.inp.setupRcv <;> cases s.eligible <;> cases s.isCur <;> rfl

/-- Outside IDLE any return to IDLE wins (R141). -/
theorem handlerWrites_st_of_ne_idle {s : State} (hst : s.h.st ≠ .idle) :
    (handlerWrites s).st =
      if .getDataMismatch ∈ s.operations ∨ .getStatus ∈ s.operations ∨ .setMismatch ∈ s.operations ∨
        .setDone ∈ s.operations ∨ .unhandledStallData ∈ s.operations ∨ .unhandledStallStatus ∈ s.operations
      then .idle else s.h.st := by
  simp (disch := decide) only [mem_operations_iff_fires, State.Fires]
  unfold handlerWrites State.setup
  cases h : s.h.st with
  | idle => exact absurd h hst
  | handleCurrent => cases s.inp.setup.isIn <;> simp
  | unhandled => simp

/-- The flag after a cycle (R142 to R144, R151). -/
theorem handlerWrites_trig (s : State) :
    (handlerWrites s).trig =
      if s.h.st = .idle then false else if .setArm ∈ s.operations then true else s.h.trig := by
  obtain ⟨-, -, -, -, harm⟩ := cycleOutputs_pulses s
  rw [Bool.eq_iff_iff, handlerWrites_trig_iff, harm]
  split_ifs <;> simp [*]

/-- Settles O11: each pulse and each register of the closed form, by the operations that write it. -/
theorem operationsOfACycleCombine : Obligations.OperationsOfACycleCombine := by
  intro s u h
  obtain ⟨-, -, rfl⟩ := step_next_admitted h
  obtain ⟨hack, hstall, hzlp, htx, hrx⟩ := cycleOutputs_pulses s
  exact ⟨hack, hstall, hzlp, htx, hrx, handlerWrites_st_of_idle, handlerWrites_st_of_ne_idle, handlerWrites_trig s,
    handlerWrites_pds_of_commit s⟩

/-! ### The order of firing -/

/-- The operations of H outside IDLE. -/
def isTransferOp : Instr → Bool
  | .idleIgnore | .idleDispatchCur | .idleDispatchUnhandled => false
  | i => isHandlerOp i

theorem exec_handler {i : Instr} (hi : isHandlerOp i = true) (s : State) : exec i s = .next (handlerEffect i s) := by
  cases i <;> cases hi <;> rfl

/-- A run of operations of H is the composition of their effects: none of them refuses. -/
theorem runOps_handler {l : List Instr} (h : ∀ i ∈ l, isHandlerOp i = true) (s : State) :
    runOps l s = .next (l.foldl (fun v i => handlerEffect i v) s) := by
  induction l generalizing s with
  | nil => rfl
  | cons i l ih =>
    obtain ⟨hi, hl⟩ := List.forall_mem_cons.1 h
    rw [runOps_cons_next (exec_handler hi s), ih hl, List.foldl_cons]

/-- The operations of a transfer commute, but for the one pair of a reader and a writer: GET_DRIVE reads what
SET_COMMIT writes. -/
theorem handlerEffect_comm {i j : Instr} (hi : isTransferOp i = true) (hj : isTransferOp j = true)
    (hij : i = .getDrive → j ≠ .setCommit) (hji : j = .getDrive → i ≠ .setCommit) (s : State) :
    handlerEffect j (handlerEffect i s) = handlerEffect i (handlerEffect j s) := by
  cases i with
  | getDrive => cases j with
    | setCommit => exact absurd rfl (hij rfl)
    | _ => cases hj <;> rfl
  | setCommit => cases j with
    | getDrive => exact absurd rfl (hji rfl)
    | _ => cases hj <;> rfl
  | _ => cases hi <;> cases j <;> cases hj <;> rfl

theorem fires_of_mem {s : State} {i : Instr} (h : i ∈ s.handlerKey.operations) : s.Fires i :=
  (mem_operations_iff_fires (handler_kind h) s).1 ((mem_operations s i).2 (.inr (.inr (.inr h))))

theorem transferOp_of_fires {s : State} (hst : s.h.st ≠ .idle) {i : Instr} (h : s.Fires i) :
    isTransferOp i = true := by
  cases i with
  | idleIgnore | idleDispatchCur | idleDispatchUnhandled => exact absurd h.1 hst
  | _ => cases h <;> rfl

/-- In IDLE one operation fires (R142 to R144). -/
theorem eq_of_fires_idle {s : State} (hst : s.h.st = .idle) {i : Instr} (h : s.Fires i) :
    i = if s.inp.setupRcv && s.eligible then if s.isCur then .idleDispatchCur else .idleDispatchUnhandled
      else .idleIgnore := by
  cases i with
  | idleIgnore | idleDispatchCur | idleDispatchUnhandled => simp [h.2]
  | _ => simp [State.Fires, hst] at h

/-- Settles O12: in IDLE a single operation fires; outside IDLE any two that fire in one cycle commute. -/
theorem firingOrderIsImmaterial : Obligations.FiringOrderIsImmaterial := by
  intro s l hperm
  have hkind : ∀ i ∈ s.handlerKey.operations, isHandlerOp i = true := fun _ => handler_kind
  rw [runOps_handler fun i hi => hkind i (hperm.mem_iff.1 hi), runOps_handler hkind]
  refine congrArg _ (hperm.foldl_eq' (fun i hi j hj v => ?_) _)
  have hfi := fires_of_mem (hperm.mem_iff.1 hi)
  have hfj := fires_of_mem (hperm.mem_iff.1 hj)
  by_cases hst : s.h.st = .idle
  · rw [eq_of_fires_idle hst hfi, eq_of_fires_idle hst hfj]
  · exact handlerEffect_comm (transferOp_of_fires hst hfi) (transferOp_of_fires hst hfj)
      (fun hget hcommit => State.not_fires_setCommit_of_getDrive (hget ▸ hfi) (hcommit ▸ hfj))
      (fun hget hcommit => State.not_fires_setCommit_of_getDrive (hget ▸ hfj) (hcommit ▸ hfi)) v

/-! ### Laws of a transfer -/

/-- Outside IDLE the rows that act are the operations that write a register or assert a pulse (R159; log 18). -/
theorem no_acting_row_iff {s : State} (hst : s.h.st ≠ .idle) :
    s.handlerKey.actingRows.any (·.1) = false ↔
      ∀ i ∈ [Instr.getDataMatch, .getDataMismatch, .getStatus, .setArm, .setMismatch, .setCommit, .setDataAck,
        .setStatusZlp, .setDone, .unhandledStallData, .unhandledStallStatus], i ∉ s.operations := by
  have hidle : s.handlerKey.idle = false := Bool.eq_false_iff.2 (mt (key_idle_iff s).1 hst)
  simp (disch := decide) only [List.forall_mem_cons, mem_operations_handler, mem_allRows, HandlerKey.actingRows,
    List.any_cons, List.any_nil, hidle, Bool.false_and, Bool.or_eq_false_iff, Bool.not_eq_true, List.not_mem_nil,
    false_imp_iff, implies_true, true_and]

theorem HandlerRegs.eq_of_fields {h h' : HandlerRegs} (st : h.st = h'.st) (trig : h.trig = h'.trig)
    (pds : h.pds = h'.pds) (gSetup : h.gSetup = h'.gSetup) : h = h' := by
  cases h
  exact (HandlerRegs.mk.injEq ..).mpr ⟨st, trig, pds, gSetup⟩

/-- Settles O50: with no operation of the list, every clause of O11 says that nothing is written. -/
theorem holdWaitsForTheNextPulse : Obligations.HoldWaitsForTheNextPulse := by
  intro s
  have hkey := (mem_operations_iff_fires (i := .hold) rfl s).trans (and_congr_right no_acting_row_iff)
  refine ⟨hkey, rfl, fun hhold u h => ?_⟩
  obtain ⟨hst, hnone⟩ := hkey.1 hhold
  obtain ⟨ack, stall, zlp, tx, rx, -, st, trig, pds⟩ := operationsOfACycleCombine s u h
  simp only [List.forall_mem_cons] at hnone
  simp only [hnone, hst, or_self, iff_false, Bool.not_eq_true, if_false, ne_eq, not_false_eq_true, true_imp_iff]
    at ack stall zlp tx rx st trig pds
  obtain ⟨-, -, rfl⟩ := step_next_admitted h
  exact ⟨HandlerRegs.eq_of_fields st trig pds (handlerWrites_of_ne_idle hst).1, ack, stall, zlp, tx, rx⟩

/-- Ticks without a commit keep the setting (R153). -/
theorem pds_runTicks {u v : State} {n : Nat} (h : runTicks n u = .next v)
    (hno : ∀ k < n, ∀ x, runTicks k u = .next x → .setCommit ∉ x.operations) : v.h.pds = u.h.pds := by
  induction n generalizing v with
  | zero => cases h; rfl
  | succ n ih =>
    obtain ⟨x, hx, hv⟩ := (runTicks_snoc_next_iff n u v).1 h
    obtain ⟨-, -, hpds⟩ := setCommitStoresTheReceivedByte x
    calc v.h.pds = x.h.pds := (hpds v hv).trans (if_neg (hno n n.lt_succ_self x hx))
      _ = u.h.pds := ih hx fun k hk => hno k (Nat.lt_succ_of_lt hk)

theorem getDrive_of_getDataMatch {s : State} (h : .getDataMatch ∈ s.operations) : .getDrive ∈ s.operations := by
  obtain ⟨hst, hin, -⟩ := (mem_operations_iff_fires rfl s).1 h
  exact (mem_operations_iff_fires rfl s).2 ⟨hst, hin⟩

/-- Settles O52: the setting is kept from `u` to `v`, and GET_DRIVE presents it. -/
theorem committedByteIsReadBack : Obligations.CommittedByteIsReadBack := by
  intro s u v w n hs hrun hno hsel hv
  have hpds := pds_runTicks hrun hno
  obtain ⟨-, -, hports, -⟩ := getDrivePresentsTheResolvedValue v
  refine ⟨fun hcommit hmatch => ?_, fun hget hsel' hget' => ?_⟩
  · obtain ⟨hpay, hlen, -⟩ := hports (getDrive_of_getDataMatch hmatch) w hv
    obtain ⟨-, -, -, htx, -⟩ := operationsOfACycleCombine v w hv
    obtain ⟨-, -, hstored⟩ := setCommitStoresTheReceivedByte s
    refine ⟨htx.2 hmatch, ?_, hlen.trans (if_pos hsel)⟩
    calc w.out.txPayload = v.h.pds := hpay.trans (if_pos hsel)
      _ = u.h.pds := hpds
      _ = s.inp.rxPayload := (hstored u hs).trans (if_pos hcommit)
  · obtain ⟨hpay, -, -⟩ := hports hget' w hv
    obtain ⟨-, -, hports', -⟩ := getDrivePresentsTheResolvedValue s
    obtain ⟨hpay', -, hkeep⟩ := hports' hget u hs
    have hw : w.out.txPayload = s.h.pds := ((hpay.trans (if_pos hsel)).trans hpds).trans hkeep
    exact ⟨hw.trans (hpay'.trans (if_pos hsel')).symm, hw⟩

/-- A dispatch latches the SETUP fields (R143, R144). -/
theorem handlerWrites_gSetup_of_dispatch {s : State}
    (h : .idleDispatchCur ∈ s.operations ∨ .idleDispatchUnhandled ∈ s.operations) :
    (handlerWrites s).gSetup = s.inp.setup := by
  simp (disch := decide) only [mem_operations_iff_fires, State.Fires] at h
  obtain ⟨hst, hrcv, hel, -⟩ | ⟨hst, hrcv, hel, -⟩ := h <;>
    rw [handlerWrites_idle hst, if_pos (Bool.and_eq_true_iff.2 ⟨hrcv, hel⟩)] <;> rfl

/-- Settles O54: the state after the cycle is O11's; each operation that returns to IDLE is one of the three endings. -/
theorem handlerTakesOneTransferAtATime : Obligations.HandlerTakesOneTransferAtATime := by
  intro s u h
  obtain ⟨hack, hstall, -, -, -, hidle, hbusy, -, -⟩ := operationsOfACycleCombine s u h
  obtain ⟨-, hH, rfl⟩ := step_next_admitted h
  refine ⟨fun hst hne => ?start, fun hst => ?serve, fun hst hend => ?finish⟩
  case start =>
    have hnext := hidle hst
    by_cases hcur : .idleDispatchCur ∈ s.operations
    · exact ⟨.inl ⟨hnext.trans (if_pos hcur), hcur⟩, handlerWrites_gSetup_of_dispatch (.inl hcur)⟩
    · rw [if_neg hcur] at hnext
      by_cases hun : .idleDispatchUnhandled ∈ s.operations
      · exact ⟨.inr ⟨hnext.trans (if_pos hun), hun⟩, handlerWrites_gSetup_of_dispatch (.inr hun)⟩
      · exact absurd (hnext.trans (if_neg hun)) hne
  case serve =>
    obtain ⟨hkeep, hnext⟩ := handlerWrites_of_ne_idle hst
    exact ⟨(hH hst).1, hkeep, hnext⟩
  case finish =>
    rw [hbusy hst] at hend
    split at hend
    · rename_i hcause
      rcases hcause with hmis | hstatus | hmis | hdone | hdata | hstat
      · exact .inl (hstall.2 (.inl hmis))
      · obtain ⟨-, hin, -⟩ := (mem_operations_iff_fires rfl s).1 hstatus
        exact .inr (.inl ⟨hin, hack.2 (.inl hstatus)⟩)
      · exact .inl (hstall.2 (.inr (.inl hmis)))
      · obtain ⟨-, hout, hackIn⟩ := (mem_operations_iff_fires rfl s).1 hdone
        exact .inr (.inr ⟨hout, hackIn⟩)
      · exact .inl (hstall.2 (.inr (.inr (.inl hdata))))
      · exact .inl (hstall.2 (.inr (.inr (.inr hstat))))
    · exact absurd hend hst

/-- Any other selector has the resolved length 0 (R86). -/
theorem lenMatch_eq_of_other {s : State} (hsel : s.selPD = false) : s.lenMatch = (s.inp.setup.length == 0) := by
  have hres : s.resLen = 0 := if_neg (Bool.eq_false_iff.1 hsel)
  rw [State.lenMatch, hres]
  rfl

/-- Settles O56: the length decides which operation of the data stage fires; O11 and the ports say what it does. -/
theorem unknownSelectorHasLengthZero : Obligations.UnknownSelectorHasLengthZero := by
  intro s u h hst hsel
  have hother : ¬s.selPD = true := Bool.eq_false_iff.1 hsel
  have hlen := lenMatch_eq_of_other hsel
  have hbusy : s.h.st ≠ .idle := by rw [hst]; decide
  obtain ⟨-, hstall, -, htx, hrx, -, hend, -, hpds⟩ := operationsOfACycleCombine s u h
  refine ⟨?pds, fun hin hdata hzero => ?get, fun hin hdata hne => ?getMismatch, fun hout htrig hzero => ?set,
    fun hout htrig hne => ?setMismatch⟩
  case pds =>
    refine hpds.trans (if_neg fun hcommit => ?_)
    obtain ⟨-, -, hpd, -⟩ := (mem_operations_iff_fires rfl s).1 hcommit
    exact hother hpd
  case get =>
    have hmatch : .getDataMatch ∈ s.operations :=
      (mem_operations_iff_fires rfl s).2 ⟨hst, hin, hdata, hlen.trans (beq_iff_eq.2 hzero)⟩
    obtain ⟨-, -, hports, -⟩ := getDrivePresentsTheResolvedValue s
    obtain ⟨hpay, hmax, -⟩ := hports (getDrive_of_getDataMatch hmatch) u h
    exact ⟨htx.2 hmatch, hmax.trans (if_neg hother), hpay.trans (if_neg hother)⟩
  case getMismatch =>
    have hmis : .getDataMismatch ∈ s.operations :=
      (mem_operations_iff_fires rfl s).2 ⟨hst, hin, hdata, hlen.trans (beq_eq_false_iff_ne.2 hne)⟩
    exact ⟨hstall.2 (.inl hmis), (hend hbusy).trans (if_pos (.inl hmis))⟩
  case set =>
    have harm : .setArm ∈ s.operations :=
      (mem_operations_iff_fires rfl s).2 ⟨hst, hout, htrig, hlen.trans (beq_iff_eq.2 hzero)⟩
    obtain ⟨-, -, hport, -⟩ := setDrivePresentsTheResolvedLength s
    exact ⟨hrx.2 harm, (hport ((mem_operations_iff_fires rfl s).2 ⟨hst, hout⟩) u h).trans (if_neg hother)⟩
  case setMismatch =>
    have hmis : .setMismatch ∈ s.operations :=
      (mem_operations_iff_fires rfl s).2 ⟨hst, hout, htrig, hlen.trans (beq_eq_false_iff_ne.2 hne)⟩
    exact ⟨hstall.2 (.inr (.inl hmis)), (hend hbusy).trans (if_pos (.inr (.inr (.inl hmis))))⟩

end Sys2Proof.Machine
end

section
/-! PROOFS. The protocol errors (spec/60_exceptions.md R200 to R205): which error a STALL answers, and that an
operation that stalls ends the transfer and excludes a start of an adapter. -/

namespace Sys2Proof.Machine

/-! ### The errors that a transfer shows -/

/-- A transfer served as UNHANDLED is an unsupported request (R201). -/
theorem unsupportedRequest_of_unhandled {s : State} (hst : s.h.st = .unhandled) :
    TransferError.unsupportedRequest ∈ s.transferErrors := by
  rw [State.transferErrors, hst]
  exact List.mem_cons_self

/-- A CUR transfer shows a length mismatch exactly when its length is not the resolved one (R202). -/
theorem lengthMismatch_mem_iff {s : State} (hst : s.h.st = .handleCurrent) :
    TransferError.lengthMismatch ∈ s.transferErrors ↔ s.lenMatch = false := by
  rw [State.transferErrors, hst]
  cases s.lenMatch <;> cases s.selPD <;> decide

/-! ### The operations that stall -/

/-- An operation that asserts `stallOut` fires (R148, R152, R157). -/
def State.StallFires (s : State) : Prop :=
  .getDataMismatch ∈ s.operations ∨ .setMismatch ∈ s.operations ∨ .unhandledStallData ∈ s.operations ∨
    .unhandledStallStatus ∈ s.operations

/-- The rows that stall are those of a CUR transfer of the wrong length, and those of UNHANDLED. -/
theorem State.StallFires.cause {s : State} (h : s.StallFires) :
    s.h.st = .handleCurrent ∧ s.lenMatch = false ∨ s.h.st = .unhandled := by
  rcases h with hget | hset | hdata | hstatus
  · obtain ⟨hst, -, -, hlen⟩ := (mem_operations_iff_fires rfl s).1 hget
    exact .inl ⟨hst, hlen⟩
  · obtain ⟨hst, -, -, hlen⟩ := (mem_operations_iff_fires rfl s).1 hset
    exact .inl ⟨hst, hlen⟩
  · exact .inr ((mem_operations_iff_fires rfl s).1 hdata).1
  · exact .inr ((mem_operations_iff_fires rfl s).1 hstatus).1

/-- Each operation that stalls returns to IDLE (R141, R205). -/
theorem State.StallFires.returns_to_idle {s : State} (h : s.StallFires) : (handlerWrites s).st = .idle := by
  have hbusy : s.h.st ≠ .idle := by
    obtain ⟨hst, -⟩ | hst := h.cause <;> rw [hst] <;> decide
  refine (handlerWrites_st_of_ne_idle hbusy).trans (if_pos ?_)
  rcases h with hget | hset | hdata | hstatus
  · exact .inl hget
  · exact .inr (.inr (.inl hset))
  · exact .inr (.inr (.inr (.inr (.inl hdata))))
  · exact .inr (.inr (.inr (.inr (.inr hstatus))))

/-- An adapter is started only by a CUR transfer of the resolved length (R147, R151). -/
theorem starts_need_lenMatch {s : State} (h : .getDataMatch ∈ s.operations ∨ .setArm ∈ s.operations) :
    s.h.st = .handleCurrent ∧ s.lenMatch = true := by
  obtain hget | hset := h
  · obtain ⟨hst, -, -, hlen⟩ := (mem_operations_iff_fires rfl s).1 hget
    exact ⟨hst, hlen⟩
  · obtain ⟨hst, -, -, hlen⟩ := (mem_operations_iff_fires rfl s).1 hset
    exact ⟨hst, hlen⟩

/-- No cycle both stalls and starts an adapter (R202). -/
theorem State.StallFires.starts_no_adapter {s : State} (h : s.StallFires) :
    ¬(.getDataMatch ∈ s.operations ∨ .setArm ∈ s.operations) := by
  intro hstart
  obtain ⟨hcur, hmatch⟩ := starts_need_lenMatch hstart
  obtain ⟨-, hmis⟩ | hun := h.cause
  · exact absurd (hmatch.symm.trans hmis) (by decide)
  · exact absurd (hcur.symm.trans hun) (by decide)

/-- Settles O55: `stallOut` is asserted by an operation that stalls (O11), whose row gives the error and excludes
those of the adapters. -/
theorem stallAnswersAnErrorAndReturnsToIdle : Obligations.StallAnswersAnErrorAndReturnsToIdle := by
  intro s u h hout
  obtain ⟨-, hstall, -, htx, hrx, -⟩ := operationsOfACycleCombine s u h
  obtain ⟨-, -, rfl⟩ := step_next_admitted h
  have hfires : s.StallFires := hstall.1 hout
  obtain ⟨hnotx, hnorx⟩ := not_or.1 hfires.starts_no_adapter
  refine ⟨hfires.returns_to_idle, Bool.eq_false_iff.2 (mt htx.1 hnotx), Bool.eq_false_iff.2 (mt hrx.1 hnorx), ?_⟩
  obtain ⟨hst, hmis⟩ | hst := hfires.cause
  · exact .inr ((lengthMismatch_mem_iff hst).2 hmis)
  · exact .inl (unsupportedRequest_of_unhandled hst)

end Sys2Proof.Machine
end
